-- ==== Sys2Proof/Word.lean ====
section
/-! DEFINITION. The words the spec treats as bits (00_scope.md R8, R11): nibbles, bytes, 12-bit addresses and 16-bit words. -/

namespace Sys2Proof

/-- A 4-bit field of an opcode: a register index or a count (R11, R12). -/
abbrev Nibble := BitVec 4

/-- An 8-bit unsigned byte: a register, a timer, a memory cell, the immediate NN (R7, R9). -/
abbrev Byte := BitVec 8

/-- The 12-bit operand NNN (R11). -/
abbrev Addr := BitVec 12

/-- A 16-bit word: an instruction, pc, I or a stack entry (R7). -/
abbrev Word := BitVec 16

end Sys2Proof
end

