-- ==== Sys2Proof/Syntax.lean ====
section
/-! DEFINITION. The instructions: one constructor per row of spec/opcode_table.json (30_encoding.md R76), with the operand fields of R71. -/

namespace Sys2Proof

/-- The 35 instructions. `x`, `y` are register indexes, `n` a row count, `nn` an immediate byte and `nnn` an address
(00_scope.md R11). An unrecognized word is no instruction of the table: the decoder rejects it (R77). -/
inductive Instr where
  /-- 0NNN, `SYS NNN` (40_flow.md R100). -/
  | sys (nnn : Addr)
  /-- 00E0, `CLS` (43_display.md R151). -/
  | cls
  /-- 00EE, `RET` (40_flow.md R102). -/
  | ret
  /-- 1NNN, `JP NNN` (R103). -/
  | jp (nnn : Addr)
  /-- 2NNN, `CALL NNN` (R104). -/
  | call (nnn : Addr)
  /-- 3XNN, `SE VX, NN` (R105). -/
  | seImm (x : Nibble) (nn : Byte)
  /-- 4XNN, `SNE VX, NN` (R106). -/
  | sneImm (x : Nibble) (nn : Byte)
  /-- 5XY0, `SE VX, VY` (R107). -/
  | seReg (x y : Nibble)
  /-- 6XNN, `LD VX, NN` (41_alu.md R121). -/
  | ldImm (x : Nibble) (nn : Byte)
  /-- 7XNN, `ADD VX, NN` (R122). -/
  | addImm (x : Nibble) (nn : Byte)
  /-- 8XY0, `LD VX, VY` (R123). -/
  | ldReg (x y : Nibble)
  /-- 8XY1, `OR VX, VY` (R124). -/
  | orReg (x y : Nibble)
  /-- 8XY2, `AND VX, VY` (R125). -/
  | andReg (x y : Nibble)
  /-- 8XY3, `XOR VX, VY` (R126). -/
  | xorReg (x y : Nibble)
  /-- 8XY4, `ADD VX, VY` (R127). -/
  | addReg (x y : Nibble)
  /-- 8XY5, `SUB VX, VY` (R128). -/
  | sub (x y : Nibble)
  /-- 8XY6, `SHR VX, VY` (R129). -/
  | shr (x y : Nibble)
  /-- 8XY7, `SUBN VX, VY` (R130). -/
  | subn (x y : Nibble)
  /-- 8XYE, `SHL VX, VY` (R131). -/
  | shl (x y : Nibble)
  /-- 9XY0, `SNE VX, VY` (40_flow.md R108). -/
  | sneReg (x y : Nibble)
  /-- ANNN, `LD I, NNN` (42_index_jump_random.md R140). -/
  | ldI (nnn : Addr)
  /-- BNNN, `JP V0, NNN` (R141). -/
  | jpV0 (nnn : Addr)
  /-- CXNN, `RND VX, NN` (R142). -/
  | rnd (x : Nibble) (nn : Byte)
  /-- DXYN, `DRW VX, VY, N` (43_display.md R152). -/
  | drw (x y n : Nibble)
  /-- EX9E, `SKP VX` (44_keypad.md R161). -/
  | skp (x : Nibble)
  /-- EXA1, `SKNP VX` (R162). -/
  | sknp (x : Nibble)
  /-- FX07, `LD VX, DT` (45_timers.md R170). -/
  | ldVxDt (x : Nibble)
  /-- FX0A, `LD VX, K` (44_keypad.md R163). -/
  | ldVxK (x : Nibble)
  /-- FX15, `LD DT, VX` (45_timers.md R171). -/
  | ldDtVx (x : Nibble)
  /-- FX18, `LD ST, VX` (R172). -/
  | ldStVx (x : Nibble)
  /-- FX1E, `ADD I, VX` (46_index_memory.md R180). -/
  | addIVx (x : Nibble)
  /-- FX29, `LD F, VX` (R181). -/
  | ldFVx (x : Nibble)
  /-- FX33, `LD B, VX` (R182). -/
  | ldBVx (x : Nibble)
  /-- FX55, `LD [I], VX` (R183). -/
  | ldMemVx (x : Nibble)
  /-- FX65, `LD VX, [I]` (R184). -/
  | ldVxMem (x : Nibble)
deriving DecidableEq, Repr

end Sys2Proof
end

