-- ==== Sys2Proof/Decode.lean ====
section
/-! DEFINITION. The decoder, total over every word and every list of bytes, the encoder, and the opcode map of the spec (30_encoding.md R70 to R79). -/

namespace Sys2Proof

/-! ### Fields (R71): fixed bit positions of the word `w` -/

/-- `op = w[15:12]`, the primary opcode. -/
def fieldOp (w : Word) : Nibble := w.extractLsb' 12 4

/-- `X = w[11:8]`. -/
def fieldX (w : Word) : Nibble := w.extractLsb' 8 4

/-- `Y = w[7:4]`. -/
def fieldY (w : Word) : Nibble := w.extractLsb' 4 4

/-- `N = w[3:0]`, which is also the function nibble `f` of groups 5, 8 and 9. -/
def fieldN (w : Word) : Nibble := w.extractLsb' 0 4

/-- `NN = w[7:0]`, which is also the function byte `ff` of groups E and F. -/
def fieldNN (w : Word) : Byte := w.extractLsb' 0 8

/-- `NNN = w[11:0]`. -/
def fieldNNN (w : Word) : Addr := w.extractLsb' 0 12

/-! ### Decode (R75) -/

/-- Why no instruction is read: one name per set of unrecognized words of R77, and one for bytes too few to hold a word.
An unrecognized word is safe to run: step makes it the no-op of R77. -/
inductive DecodeReject where
  /-- `5XYf` with f != 0 (R77). -/
  | unrecognized5 (f : Nibble)
  /-- `8XYf` with f in 8, 9, A, B, C, D, F (R77). -/
  | unrecognized8 (f : Nibble)
  /-- `9XYf` with f != 0 (R77). -/
  | unrecognized9 (f : Nibble)
  /-- `EXff` with ff not 9E or A1 (R77). -/
  | unrecognizedE (ff : Byte)
  /-- `FXff` with ff not one of the nine function bytes of R75 (R77). -/
  | unrecognizedF (ff : Byte)
  /-- Fewer than two bytes: no word at all (R70). Never raised by step, whose fetch reads two bytes. -/
  | truncated
deriving DecidableEq, Repr

/-- Group 0 dispatches on the whole word: CLS, RET, and SYS for everything else (R75). -/
def decode0 (w : Word) : Instr :=
  if w = 0x00E0#16 then .cls else if w = 0x00EE#16 then .ret else .sys (fieldNNN w)

/-- Group 8 dispatches on the function nibble (R75). -/
def decode8 (f x y : Nibble) : Except DecodeReject Instr :=
  match f with
  | 0x0#4 => .ok (.ldReg x y)
  | 0x1#4 => .ok (.orReg x y)
  | 0x2#4 => .ok (.andReg x y)
  | 0x3#4 => .ok (.xorReg x y)
  | 0x4#4 => .ok (.addReg x y)
  | 0x5#4 => .ok (.sub x y)
  | 0x6#4 => .ok (.shr x y)
  | 0x7#4 => .ok (.subn x y)
  | 0xE#4 => .ok (.shl x y)
  | _ => .error (.unrecognized8 f)

/-- Group E dispatches on the function byte (R75). -/
def decodeE (ff : Byte) (x : Nibble) : Except DecodeReject Instr :=
  match ff with
  | 0x9E#8 => .ok (.skp x)
  | 0xA1#8 => .ok (.sknp x)
  | _ => .error (.unrecognizedE ff)

/-- Group F dispatches on the function byte (R75, R76). -/
def decodeF (ff : Byte) (x : Nibble) : Except DecodeReject Instr :=
  match ff with
  | 0x07#8 => .ok (.ldVxDt x)
  | 0x0A#8 => .ok (.ldVxK x)
  | 0x15#8 => .ok (.ldDtVx x)
  | 0x18#8 => .ok (.ldStVx x)
  | 0x1E#8 => .ok (.addIVx x)
  | 0x29#8 => .ok (.ldFVx x)
  | 0x33#8 => .ok (.ldBVx x)
  | 0x55#8 => .ok (.ldMemVx x)
  | 0x65#8 => .ok (.ldVxMem x)
  | _ => .error (.unrecognizedF ff)

/-- The decoder of R75: dispatch on the primary opcode, then on the secondary key of its group. It reads only `w` (R79). -/
def decode (w : Word) : Except DecodeReject Instr :=
  match fieldOp w with
  | 0x0#4 => .ok (decode0 w)
  | 0x1#4 => .ok (.jp (fieldNNN w))
  | 0x2#4 => .ok (.call (fieldNNN w))
  | 0x3#4 => .ok (.seImm (fieldX w) (fieldNN w))
  | 0x4#4 => .ok (.sneImm (fieldX w) (fieldNN w))
  | 0x5#4 => if fieldN w = 0x0#4 then .ok (.seReg (fieldX w) (fieldY w)) else .error (.unrecognized5 (fieldN w))
  | 0x6#4 => .ok (.ldImm (fieldX w) (fieldNN w))
  | 0x7#4 => .ok (.addImm (fieldX w) (fieldNN w))
  | 0x8#4 => decode8 (fieldN w) (fieldX w) (fieldY w)
  | 0x9#4 => if fieldN w = 0x0#4 then .ok (.sneReg (fieldX w) (fieldY w)) else .error (.unrecognized9 (fieldN w))
  | 0xA#4 => .ok (.ldI (fieldNNN w))
  | 0xB#4 => .ok (.jpV0 (fieldNNN w))
  | 0xC#4 => .ok (.rnd (fieldX w) (fieldNN w))
  | 0xD#4 => .ok (.drw (fieldX w) (fieldY w) (fieldN w))
  | 0xE#4 => decodeE (fieldNN w) (fieldX w)
  | _ => decodeF (fieldNN w) (fieldX w)   -- 0xF, the last of the sixteen values

/-! ### Bytes (20_memory.md R55): the byte at the lower address is bits 15:8 -/

/-- `hi : lo`, two bytes joined big-endian (00_scope.md R8). -/
def wordOfBytes (hi lo : Byte) : Word := hi ++ lo

/-- Bits 15:8, the byte at the lower address. -/
def highByte (w : Word) : Byte := w.extractLsb' 8 8

/-- Bits 7:0, the byte at the higher address. -/
def lowByte (w : Word) : Byte := w.extractLsb' 0 8

/-- The instruction at the front of a list of bytes, with the bytes after it. Every instruction is two bytes (R70). -/
def decodeBytes : List Byte → Except DecodeReject (Instr × List Byte)
  | hi :: lo :: rest =>
    match decode (wordOfBytes hi lo) with
    | .ok i => .ok (i, rest)
    | .error r => .error r
  | _ => .error .truncated

/-- The word that spec/opcode_table.json numbers `w` in a row of `nbits` bits: the bits above `nbits` are 0, and bit 0 is the
least significant bit of the one instruction word (00_scope.md R8). -/
def tableWord (nbits w : Nat) : Word := BitVec.ofNat 16 (w % 2 ^ nbits)

/-- What the decoder reads from the bytes of that word, laid out as the hardware stores them. -/
def decodeTableWord (nbits w : Nat) : Option Instr :=
  match decodeBytes [highByte (tableWord nbits w), lowByte (tableWord nbits w)] with
  | .ok (i, _) => some i
  | .error _ => none

/-! ### Encode (R72): the formats, bit 15 on the left -/

/-- Format ANNN: `op NNN`. -/
def formatANNN (op : Nibble) (nnn : Addr) : Word := op ++ nnn

/-- Formats XNN and XFF: `op X NN`, where XFF fixes the byte. -/
def formatXNN (op x : Nibble) (nn : Byte) : Word := op ++ x ++ nn

/-- Formats XYF and XYN: `op X Y N`, where XYF fixes the last nibble. -/
def formatXYN (op x y n : Nibble) : Word := op ++ x ++ y ++ n

/-- The word of an instruction, from the patterns of R76. -/
def encode : Instr → Word
  | .sys nnn => formatANNN 0x0#4 nnn
  | .cls => 0x00E0#16
  | .ret => 0x00EE#16
  | .jp nnn => formatANNN 0x1#4 nnn
  | .call nnn => formatANNN 0x2#4 nnn
  | .seImm x nn => formatXNN 0x3#4 x nn
  | .sneImm x nn => formatXNN 0x4#4 x nn
  | .seReg x y => formatXYN 0x5#4 x y 0x0#4
  | .ldImm x nn => formatXNN 0x6#4 x nn
  | .addImm x nn => formatXNN 0x7#4 x nn
  | .ldReg x y => formatXYN 0x8#4 x y 0x0#4
  | .orReg x y => formatXYN 0x8#4 x y 0x1#4
  | .andReg x y => formatXYN 0x8#4 x y 0x2#4
  | .xorReg x y => formatXYN 0x8#4 x y 0x3#4
  | .addReg x y => formatXYN 0x8#4 x y 0x4#4
  | .sub x y => formatXYN 0x8#4 x y 0x5#4
  | .shr x y => formatXYN 0x8#4 x y 0x6#4
  | .subn x y => formatXYN 0x8#4 x y 0x7#4
  | .shl x y => formatXYN 0x8#4 x y 0xE#4
  | .sneReg x y => formatXYN 0x9#4 x y 0x0#4
  | .ldI nnn => formatANNN 0xA#4 nnn
  | .jpV0 nnn => formatANNN 0xB#4 nnn
  | .rnd x nn => formatXNN 0xC#4 x nn
  | .drw x y n => formatXYN 0xD#4 x y n
  | .skp x => formatXNN 0xE#4 x 0x9E#8
  | .sknp x => formatXNN 0xE#4 x 0xA1#8
  | .ldVxDt x => formatXNN 0xF#4 x 0x07#8
  | .ldVxK x => formatXNN 0xF#4 x 0x0A#8
  | .ldDtVx x => formatXNN 0xF#4 x 0x15#8
  | .ldStVx x => formatXNN 0xF#4 x 0x18#8
  | .addIVx x => formatXNN 0xF#4 x 0x1E#8
  | .ldFVx x => formatXNN 0xF#4 x 0x29#8
  | .ldBVx x => formatXNN 0xF#4 x 0x33#8
  | .ldMemVx x => formatXNN 0xF#4 x 0x55#8
  | .ldVxMem x => formatXNN 0xF#4 x 0x65#8

/-- The two bytes of an instruction in memory, lowest address first (20_memory.md R55). -/
def encodeBytes (i : Instr) : List Byte := [highByte (encode i), lowByte (encode i)]

/-! ### The opcode map (R76): a word selects a row when `(w & mask) = match` -/

/-- The mask and match columns of one row of R76. -/
structure OpcodeRow where
  mask      : Word
  matchBits : Word
deriving DecidableEq, Repr

/-- "A word selects a row when `(w & mask) = match`" (R76). -/
def OpcodeRow.selects (r : OpcodeRow) (w : Word) : Bool := w &&& r.mask == r.matchBits

/-- The 35 rows of R76 in its order. -/
def opcodeRows : List OpcodeRow :=
  [⟨0xF000, 0x0000⟩, ⟨0xFFFF, 0x00E0⟩, ⟨0xFFFF, 0x00EE⟩, ⟨0xF000, 0x1000⟩, ⟨0xF000, 0x2000⟩] ++
  [⟨0xF000, 0x3000⟩, ⟨0xF000, 0x4000⟩, ⟨0xF00F, 0x5000⟩, ⟨0xF000, 0x6000⟩, ⟨0xF000, 0x7000⟩] ++
  [⟨0xF00F, 0x8000⟩, ⟨0xF00F, 0x8001⟩, ⟨0xF00F, 0x8002⟩, ⟨0xF00F, 0x8003⟩, ⟨0xF00F, 0x8004⟩] ++
  [⟨0xF00F, 0x8005⟩, ⟨0xF00F, 0x8006⟩, ⟨0xF00F, 0x8007⟩, ⟨0xF00F, 0x800E⟩, ⟨0xF00F, 0x9000⟩] ++
  [⟨0xF000, 0xA000⟩, ⟨0xF000, 0xB000⟩, ⟨0xF000, 0xC000⟩, ⟨0xF000, 0xD000⟩, ⟨0xF0FF, 0xE09E⟩] ++
  [⟨0xF0FF, 0xE0A1⟩, ⟨0xF0FF, 0xF007⟩, ⟨0xF0FF, 0xF00A⟩, ⟨0xF0FF, 0xF015⟩, ⟨0xF0FF, 0xF018⟩] ++
  [⟨0xF0FF, 0xF01E⟩, ⟨0xF0FF, 0xF029⟩, ⟨0xF0FF, 0xF033⟩, ⟨0xF0FF, 0xF055⟩, ⟨0xF0FF, 0xF065⟩]

/-- The row's number in R76. -/
def Instr.rowNumber : Instr → Nat
  | .sys _ => 1
  | .cls => 2
  | .ret => 3
  | .jp _ => 4
  | .call _ => 5
  | .seImm _ _ => 6
  | .sneImm _ _ => 7
  | .seReg _ _ => 8
  | .ldImm _ _ => 9
  | .addImm _ _ => 10
  | .ldReg _ _ => 11
  | .orReg _ _ => 12
  | .andReg _ _ => 13
  | .xorReg _ _ => 14
  | .addReg _ _ => 15
  | .sub _ _ => 16
  | .shr _ _ => 17
  | .subn _ _ => 18
  | .shl _ _ => 19
  | .sneReg _ _ => 20
  | .ldI _ => 21
  | .jpV0 _ => 22
  | .rnd _ _ => 23
  | .drw _ _ _ => 24
  | .skp _ => 25
  | .sknp _ => 26
  | .ldVxDt _ => 27
  | .ldVxK _ => 28
  | .ldDtVx _ => 29
  | .ldStVx _ => 30
  | .addIVx _ => 31
  | .ldFVx _ => 32
  | .ldBVx _ => 33
  | .ldMemVx _ => 34
  | .ldVxMem _ => 35

/-- The row of R76 an instruction belongs to. -/
def Instr.row (i : Instr) : OpcodeRow := opcodeRows.getD (i.rowNumber - 1) ⟨0, 0⟩

end Sys2Proof
end

