-- ==== Sys2Proof/Config.lean ====
section
/-! DEFINITION. What one implementation fixes (00_scope.md R7, 10_state.md R36): COMPAT_MODE and FONT as data, and the random source RNG as a free value. -/

namespace Sys2Proof

/-- COMPAT_MODE (R7, 41_alu.md R132): "legacy/COSMAC" or "modern/CHIP-48" semantics. -/
inductive CompatMode where
  | cosmac
  | chip48
deriving DecidableEq, Repr

/-- FONT (R7, 20_memory.md R53): the 80 bytes that stand at 0x050..0x09F after reset. -/
abbrev Font := Vector Byte 80

/-- The configuration parameters of one core, "fixed for the lifetime of one core" (R7). -/
structure Config where
  compatMode : CompatMode
  font       : Font
deriving DecidableEq, Repr

/-- RNG (R7, 42_index_jump_random.md R143): the byte of the n-th draw. It has no body, so nothing is known of any draw:
"A model takes `r` as a free input in 0..255 with no law". DESIGN CHOICE, safe for claims about one run, log 2.
The constant is one for all: two instances, or two runs from `State.reset`, whose counters agree draw the same byte, and
nothing in it tells one instance from another. The spec leaves that open and says not to assume a repeatable sequence
(91_not_in_source.md N15, 60_exceptions.md R215). DESIGN CHOICE, unsafe for a claim that compares two cores or runs, log 23. -/
opaque Config.randomByte : Nat → Byte

end Sys2Proof
end

