-- ==== Sys2Proof/Machine/Defaults.lean ====
section
/-! DEFINITION. The default of each configuration parameter (00_scope.md R7) and the byte each address holds after reset (10_state.md R38). -/

namespace Sys2Proof.Machine

/-- The default FONT of 20_memory.md R53, glyphs 0 to F, top row first.
PRESUMED (the spec marks these bytes "from general knowledge, not in source"), unsafe, log 5. -/
def defaultGlyphs : List Byte :=
  [0xF0, 0x90, 0x90, 0x90, 0xF0] ++ [0x20, 0x60, 0x20, 0x20, 0x70] ++
  [0xF0, 0x10, 0xF0, 0x80, 0xF0] ++ [0xF0, 0x10, 0xF0, 0x10, 0xF0] ++
  [0x90, 0x90, 0xF0, 0x10, 0x10] ++ [0xF0, 0x80, 0xF0, 0x10, 0xF0] ++
  [0xF0, 0x80, 0xF0, 0x90, 0xF0] ++ [0xF0, 0x10, 0x20, 0x40, 0x40] ++
  [0xF0, 0x90, 0xF0, 0x90, 0xF0] ++ [0xF0, 0x90, 0xF0, 0x10, 0xF0] ++
  [0xF0, 0x90, 0xF0, 0x90, 0x90] ++ [0xE0, 0x90, 0xE0, 0x90, 0xE0] ++
  [0xF0, 0x80, 0x80, 0x80, 0xF0] ++ [0xE0, 0x90, 0x90, 0x90, 0xE0] ++
  [0xF0, 0x80, 0xF0, 0x80, 0xF0] ++ [0xF0, 0x80, 0xF0, 0x80, 0x80]

/-- The default FONT as the 80 bytes of R7. -/
def defaultFont : Font := Vector.ofFn fun k => defaultGlyphs.getD k 0

/-- The defaults of R7: COMPAT_MODE is COSMAC, FONT is the font of R53.
DESIGN CHOICE that `State.reset` takes them, unsafe for a claim about a core with other parameters, log 4. -/
def defaultConfig : Config := { compatMode := .cosmac, font := defaultFont }

/-- The byte at address `a` after RESET (R38, 70_reset_and_hazards.md R231): FONT at 0x050..0x09F, zero elsewhere.
This is what an address that memory does not list reads as.
DESIGN CHOICE (the spec's own decision D17 for the zeros), unsafe, log 7. -/
def resetByte (c : Config) (a : Nat) : Byte :=
  if h : 0x050 ≤ a ∧ a < 0x0A0 then c.font[a - 0x050] else 0

end Sys2Proof.Machine
end

