-- ==== Sys2Proof/Machine/State.lean ====
section
/-! DEFINITION. The state of the core (10_state.md R20), its value after reset (R38), and the reasons a step could stop. -/

namespace Sys2Proof.Machine

/-- Memory (R33): the cells that differ from their reset contents `resetByte`, addresses strictly rising.
Every address 0x000..0xFFF that is not listed reads as `resetByte`. -/
abbrev Memory := List Host.Cell

/-- The display `disp[x][y]`, x in 0..63 and y in 0..31, true for on (R31, 43_display.md R150). -/
abbrev Display := Vector (Vector Bool 32) 64

/-- Everything the spec gives the machine (R20), and the configuration of the one core that runs (R36). Plain data. -/
structure State where
  /-- V[0..15] (R21); V[15] is VF (R22). -/
  v : Vector Byte 16
  /-- pc, the address of the next instruction; during execution that instruction's address plus 2 (R24, R25). -/
  pc : Word
  /-- The index register I (R27). -/
  i : Word
  /-- stack[0..15] (R28). -/
  stack : Vector Word 16
  /-- sp, the number of stack entries in use, 0 to 16 (R28). -/
  sp : Fin 17
  /-- The delay timer DT (R29). -/
  dt : Byte
  /-- The sound timer ST (R30). -/
  st : Byte
  /-- mem[0..4095] (R33). -/
  mem : Memory
  /-- disp (R31). -/
  disp : Display
  /-- key[0..15], true for pressed (R32). -/
  key : Vector Bool 16
  /-- The random source (R34), as the number of free draws taken: the model's own form of it, log 2. Cores whose numbers
agree draw the same byte: log 23. -/
  rng : Nat
  /-- halted (R35). -/
  halted : Bool
  /-- fault_cause (R35), with the codes of 60_exceptions.md R201. -/
  faultCause : BitVec 2
  /-- fault_pc (R35). -/
  faultPc : Word
  /-- COMPAT_MODE and FONT, which nothing changes (R36): the model's own field, log 4. -/
  config : Config
deriving DecidableEq, Repr

/-- The synchronous faults of 60_exceptions.md R201. The spec describes their entry (R202), so a meaning that raises one
takes it (`State.takeFault`, a next state) and no step answers `Outcome.fault`. -/
inductive Fault where
  /-- STACK_OVERFLOW, raised by CALL when sp = 16 (40_flow.md R104). Safe: the entry is the spec's own, and the halted core is a failed run. -/
  | stackOverflow
  /-- STACK_UNDERFLOW, raised by RET when sp = 0 (R102). Safe, as above. -/
  | stackUnderflow
  /-- KEY_INDEX_RANGE, raised by SKP and SKNP when V[X] > 15 (44_keypad.md R160). Safe, as above. -/
  | keyIndexRange
deriving DecidableEq, Repr

/-- The refusals: none is answered by any arm, since every instruction has its meaning. -/
inductive Refusal where
  /-- Raised by an arm of exec whose instruction has no meaning yet; there is none. Safe: a run that met it would stop. -/
  | notModelled (mnemonic : String)
deriving DecidableEq, Repr

/-- RESET's values (R38, 70_reset_and_hazards.md R231) for a core with the parameters `c` whose random source stands at `draws`.
The zeros other than pc are the spec's own decisions D9 and D17: unsafe, log 6. -/
def State.resetWith (c : Config) (draws : Nat) : State where
  v := Vector.replicate 16 0
  pc := 0x200
  i := 0
  stack := Vector.replicate 16 0
  sp := 0
  dt := 0
  st := 0
  mem := []
  disp := Vector.replicate 64 (Vector.replicate 32 false)
  key := Vector.replicate 16 false
  rng := draws
  halted := false
  faultCause := 0
  faultPc := 0
  config := c

/-- The machine right after its first RESET, with the default parameters (R7) and no random byte drawn yet.
DESIGN CHOICE: the defaults (log 4) and the draw count 0 (log 2), both unsafe to lean on. -/
def State.reset : State := State.resetWith defaultConfig 0

end Sys2Proof.Machine
end

