-- ==== Sys2Proof/Machine/Ops.lean ====
section
/-! DEFINITION. The named operations of the core: addresses, memory, registers, pc, the call stack, the random source, the display, the keypad and fault entry. -/

namespace Sys2Proof.Machine

/-! ### Addresses (00_scope.md R9) -/

/-- `addr(v) = v mod 4096`, held in 16 bits. -/
def addr (v : Nat) : Word := BitVec.ofNat 16 (v % 4096)

/-! ### Memory (20_memory.md R50 to R58) -/

/-- The byte at `a`: the listed one, or what an unlisted address reads as. -/
def Memory.read (unlisted : Nat → Byte) (m : Memory) (a : Nat) : Byte :=
  match m with
  | [] => unlisted a
  | (b, w) :: rest => if a = b then w else Memory.read unlisted rest a

/-- Store `v` at `a`, keeping the canonical form: addresses rise and no cell holds what it reads as unlisted. -/
def Memory.write (unlisted : Nat → Byte) (m : Memory) (a : Nat) (v : Byte) : Memory :=
  match m with
  | [] => if v = unlisted a then [] else [(a, v)]
  | (b, w) :: rest =>
    if a < b then (if v = unlisted a then (b, w) :: rest else (a, v) :: (b, w) :: rest)
    else if a = b then (if v = unlisted a then rest else (a, v) :: rest)
    else (b, w) :: Memory.write unlisted rest a v

/-- Every listed address is at least `lo` and below 4096, addresses rise, and no cell holds its unlisted value. -/
def Memory.wfFrom (unlisted : Nat → Byte) (lo : Nat) : Memory → Bool
  | [] => true
  | (a, v) :: rest =>
    decide (lo ≤ a) && decide (a < 4096) && decide (v ≠ unlisted a) && Memory.wfFrom unlisted (a + 1) rest

/-- The canonical form of memory: equal memories are equal lists. -/
def Memory.wf (unlisted : Nat → Byte) (m : Memory) : Bool := Memory.wfFrom unlisted 0 m

/-- `MemRead(a, 1) = mem[a mod 4096]` (R51). -/
def State.memRead (s : State) (a : Nat) : Byte := Memory.read (resetByte s.config) s.mem (a % 4096)

/-- `MemWrite(a, 1, v) : mem[a mod 4096] <- v` (R51). -/
def State.memWrite (s : State) (a : Nat) (v : Byte) : State :=
  { s with mem := Memory.write (resetByte s.config) s.mem (a % 4096) v }

/-- The bytes `bs` stored upwards from `a`, each address reduced on its own (R62). -/
def State.memWriteList (s : State) (a : Nat) : List Byte → State
  | [] => s
  | b :: bs => State.memWriteList (s.memWrite a b) (a + 1) bs

/-! ### Registers (10_state.md R21, R27, R29, R30) -/

/-- `V[x]`. -/
def State.readV (s : State) (x : Nibble) : Byte := s.v[x.toNat]'x.isLt

/-- `V[x] <- b`. -/
def State.writeV (s : State) (x : Nibble) (b : Byte) : State := { s with v := s.v.set x.toNat b x.isLt }

/-- `I <- a`; every caller reduces `a` mod 4096 (R27). -/
def State.writeI (s : State) (a : Word) : State := { s with i := a }

/-- `DT <- b`. -/
def State.writeDt (s : State) (b : Byte) : State := { s with dt := b }

/-- `ST <- b`. -/
def State.writeSt (s : State) (b : Byte) : State := { s with st := b }

/-! ### The program counter (R24, R25) -/

/-- `pc <- a`, a control transfer. -/
def State.setPc (s : State) (a : Word) : State := { s with pc := a }

/-- The fetch's advance, `pc <- addr(a + 2)` (30_encoding.md R74). -/
def State.advancePc (s : State) : State := s.setPc (addr (s.pc.toNat + 2))

/-- A skip, `pc <- addr(pc + 2)` once more (40_flow.md R101). -/
def State.skip (s : State) : State := s.setPc (addr (s.pc.toNat + 2))

/-- A skip when `c` holds. -/
def State.skipIf (s : State) (c : Bool) : State := if c then s.skip else s

/-- `addr(pc - 2 + 4096)`: the address of the instruction that executes, whose fetch has set pc two further (R25, 44_keypad.md R163).
DEDUCED, log 1. -/
def State.instrAddr (s : State) : Word := addr (4096 + s.pc.toNat - 2)

/-- The word at pc, `MemRead(a, 1) : MemRead(a + 1, 1)`, big-endian, each address mod 4096 (R74, 20_memory.md R55). -/
def State.fetchWord (s : State) : Word := wordOfBytes (s.memRead s.pc.toNat) (s.memRead (s.pc.toNat + 1))

/-! ### The call stack (R28) -/

/-- A push: `stack[sp] <- a; sp <- sp + 1`, legal only when sp < 16; none otherwise. -/
def State.push (s : State) (a : Word) : Option State :=
  if h : s.sp.val < 16 then
    some { s with stack := s.stack.set s.sp.val a, sp := ⟨s.sp.val + 1, by omega⟩ }
  else none

/-- A pop: `sp <- sp - 1; v <- stack[sp]`, legal only when sp > 0; none otherwise. The entry read is not cleared. -/
def State.pop (s : State) : Option (State × Word) :=
  if h : 0 < s.sp.val then
    some ({ s with sp := ⟨s.sp.val - 1, by omega⟩ }, s.stack[s.sp.val - 1])
  else none

/-! ### Fault entry (60_exceptions.md R201, R202) -/

/-- The code recorded in fault_cause (R201). -/
def Fault.code : Fault → BitVec 2
  | .stackOverflow => 1
  | .stackUnderflow => 2
  | .keyIndexRange => 3

/-- Taking a fault (R202), by the instruction at `a`: pc <- a, fault_cause <- c, fault_pc <- a, halted <- 1, and nothing else.
There is no return from it: the core has no trap-return instruction (R204), and only RESET clears it (R203). -/
def State.takeFault (s : State) (c : Fault) : State :=
  { s with pc := s.instrAddr, halted := true, faultCause := c.code, faultPc := s.instrAddr }

/-! ### The random source (R34, 42_index_jump_random.md R143) -/

/-- `draw_random_byte()`: a free byte, and the source advanced past it. -/
def State.drawRandomByte (s : State) : Byte × State := (Config.randomByte s.rng, { s with rng := s.rng + 1 })

/-! ### The display (R31, 43_display.md R150) -/

/-- `disp[x mod 64][y mod 32]`: coordinates are toroidal. -/
def Display.cell (d : Display) (x y : Nat) : Bool :=
  (d[x % 64]'(Nat.mod_lt x (by decide)))[y % 32]'(Nat.mod_lt y (by decide))

/-- `disp[x mod 64][y mod 32] <- b`. -/
def Display.setCell (d : Display) (x y : Nat) (b : Bool) : Display :=
  d.set (x % 64)
    ((d[x % 64]'(Nat.mod_lt x (by decide))).set (y % 32) b (Nat.mod_lt y (by decide)))
    (Nat.mod_lt x (by decide))

/-- Every cell off. -/
def Display.blank : Display := Vector.replicate 64 (Vector.replicate 32 false)

/-- The whole grid replaced. -/
def State.setDisp (s : State) (d : Display) : State := { s with disp := d }

/-- What a draw carries from pixel to pixel: the grid and the collision accumulated so far (R152, R154). -/
structure Canvas where
  grid : Display
  hit  : Bool
deriving DecidableEq, Repr

/-- One pixel of a sprite: a 0 bit leaves the cell alone; a 1 bit flips it, and a cell that was on is a collision (R152). -/
def Canvas.xorPixel (k : Canvas) (x y : Nat) (bit : Bool) : Canvas :=
  if bit then
    { grid := k.grid.setCell x y (!k.grid.cell x y), hit := k.hit || k.grid.cell x y }
  else k

/-- The pixel in column `c` of a row byte is bit `7 - c` (R153). -/
def rowBit (row : Byte) (c : Nat) : Bool := row.getLsbD (7 - c)

/-- The first `n` pixels of a row drawn from `(x, y)`, columns upwards. -/
def Canvas.drawRow (row : Byte) (x y : Nat) (k : Canvas) : Nat → Canvas
  | 0 => k
  | n + 1 => (Canvas.drawRow row x y k n).xorPixel (x + n) y (rowBit row n)

/-- The first `n` rows of a sprite drawn from `(x, y)`, rows upwards, row `r` being `row r`. -/
def Canvas.drawRows (row : Nat → Byte) (x y : Nat) (k : Canvas) : Nat → Canvas
  | 0 => k
  | n + 1 => Canvas.drawRow (row n) x (y + n) (Canvas.drawRows row x y k n) 8

/-! ### The keypad (R32) -/

/-- `key[k]`, true when key k is pressed. -/
def State.keyDown (s : State) (k : Fin 16) : Bool := s.key[k.val]

/-- The least k in 0..15 with key[k] = 1, if there is one (44_keypad.md R163). -/
def State.leastKey (s : State) : Option (Fin 16) := (List.finRange 16).find? s.keyDown

/-! ### Block transfer (46_index_memory.md R183, R184) -/

/-- `for i in 0 .. n-1: MemWrite(base + i, 1, V[i])`. -/
def State.storeRegs (s : State) (base : Nat) : Nat → State
  | 0 => s
  | n + 1 => (s.storeRegs base n).memWrite (base + n) (s.readV (BitVec.ofNat 4 n))

/-- `for i in 0 .. n-1: V[i] <- MemRead(base + i, 1)`. -/
def State.loadRegs (s : State) (base : Nat) : Nat → State
  | 0 => s
  | n + 1 => (s.loadRegs base n).writeV (BitVec.ofNat 4 n) (s.memRead (base + n))

end Sys2Proof.Machine
end

