-- ==== Sys2Proof/Machine/Flags.lean ====
section
/-! DEFINITION. The flag VF (10_state.md R22, R23): every value it takes, and the order in which a result and a flag are written. -/

namespace Sys2Proof.Machine

/-- VF, register 15 (R22). -/
def vf : Nibble := 0xF#4

/-- A flag as VF holds it, 1 or 0. -/
def flagByte (b : Bool) : Byte := if b then 1 else 0

/-- The carry of 8XY4: 1 if VX + VY > 255 (41_alu.md R127). -/
def carryFlag (a b : Byte) : Byte := flagByte (decide (a.toNat + b.toNat > 255))

/-- The no-borrow flag of 8XY5 and 8XY7: 0 if `a < b`, else 1 (R128, R130). -/
def noBorrowFlag (a b : Byte) : Byte := flagByte (decide (¬ a.toNat < b.toNat))

/-- The bit a right shift drops, `src[0]` (R129). -/
def shiftedOutRight (src : Byte) : Byte := flagByte (src.getLsbD 0)

/-- The bit a left shift drops, `src[7]` (R131). -/
def shiftedOutLeft (src : Byte) : Byte := flagByte (src.getLsbD 7)

/-- The result to V[X] first, then the flag to V[15], so that the flag wins when X = 15 (R120). -/
def State.writeResultFlag (s : State) (x : Nibble) (result flag : Byte) : State :=
  (s.writeV x result).writeV vf flag

/-- A logical result: V[X], and in COSMAC mode VF cleared after it (R124, R132). -/
def State.writeLogic (s : State) (x : Nibble) (result : Byte) : State :=
  match s.config.compatMode with
  | .cosmac => s.writeResultFlag x result 0
  | .chip48 => s.writeV x result

end Sys2Proof.Machine
end

