-- ==== Sys2Proof/Machine/Operands.lean ====
section
/-! DEFINITION. Operand forms (30_encoding.md R73): the register, the zero-extended immediates, and the two forms the compatibility mode or the spec's formulas select. -/

namespace Sys2Proof.Machine

/-- NNN used as it stands, zero-extended to the 16 bits of pc or I (R73). -/
def addrOperand (nnn : Addr) : Word := nnn.setWidth 16

/-- The computed jump's target, `addr(V[0] + NNN)` (42_index_jump_random.md R141). -/
def State.offsetTarget (s : State) (nnn : Addr) : Word := addr ((s.readV 0).toNat + nnn.toNat)

/-- The source of SHR and SHL: VY in COSMAC mode, VX in CHIP48 mode (41_alu.md R132). -/
def State.shiftSource (s : State) (x y : Nibble) : Byte :=
  match s.config.compatMode with
  | .cosmac => s.readV y
  | .chip48 => s.readV x

/-- The glyph address, `0x050 + V[X] * 5` (46_index_memory.md R181). -/
def State.glyphAddr (s : State) (x : Nibble) : Word := BitVec.ofNat 16 (0x050 + (s.readV x).toNat * 5)

/-- The key index V[X] of SKP and SKNP, or none when it is past 15 (44_keypad.md R160). It is not masked. -/
def State.keyIndex (s : State) (x : Nibble) : Option (Fin 16) :=
  if h : (s.readV x).toNat < 16 then some ⟨(s.readV x).toNat, h⟩ else none

/-- The last-register operand X of FX55 and FX65 as a count, X + 1 registers (R183). -/
def blockCount (x : Nibble) : Nat := x.toNat + 1

/-- The decimal digits of a byte, hundreds first: `v div 100`, `(v div 10) mod 10`, `v mod 10` (R182). -/
def decimalDigits (v : Byte) : List Byte :=
  [BitVec.ofNat 8 (v.toNat / 100), BitVec.ofNat 8 (v.toNat / 10 % 10), BitVec.ofNat 8 (v.toNat % 10)]

/-- The rows of the sprite at I: row r is `MemRead(I + r, 1)` (43_display.md R153). -/
def State.spriteRow (s : State) (r : Nat) : Byte := s.memRead (s.i.toNat + r)

end Sys2Proof.Machine
end

