-- ==== Sys2Proof/Machine/Alu.lean ====
section
/-! DEFINITION. Register loads and arithmetic-logic instructions (41_alu.md). Operands are read before anything is written, and byte arithmetic wraps mod 256 (R120). -/

namespace Sys2Proof.Machine

/-- R121: `V[X] <- NN`. -/
def execLdImm (x : Nibble) (nn : Byte) (s : State) : Host.Outcome State Fault Refusal := .next (s.writeV x nn)

/-- R122: `V[X] <- byte(V[X] + NN)`, no flag. -/
def execAddImm (x : Nibble) (nn : Byte) (s : State) : Host.Outcome State Fault Refusal :=
  .next (s.writeV x (s.readV x + nn))

/-- R123: `V[X] <- V[Y]`, no flag in either mode. -/
def execLdReg (x y : Nibble) (s : State) : Host.Outcome State Fault Refusal := .next (s.writeV x (s.readV y))

/-- R124: `V[X] <- V[X] | V[Y]`. -/
def execOrReg (x y : Nibble) (s : State) : Host.Outcome State Fault Refusal :=
  .next (s.writeLogic x (s.readV x ||| s.readV y))

/-- R125: `V[X] <- V[X] & V[Y]`. -/
def execAndReg (x y : Nibble) (s : State) : Host.Outcome State Fault Refusal :=
  .next (s.writeLogic x (s.readV x &&& s.readV y))

/-- R126: `V[X] <- V[X] ^ V[Y]`. -/
def execXorReg (x y : Nibble) (s : State) : Host.Outcome State Fault Refusal :=
  .next (s.writeLogic x (s.readV x ^^^ s.readV y))

/-- R127: the sum mod 256, VF the carry. -/
def execAddReg (x y : Nibble) (s : State) : Host.Outcome State Fault Refusal :=
  .next (s.writeResultFlag x (s.readV x + s.readV y) (carryFlag (s.readV x) (s.readV y)))

/-- R128: VX - VY mod 256, VF the no-borrow flag. -/
def execSub (x y : Nibble) (s : State) : Host.Outcome State Fault Refusal :=
  .next (s.writeResultFlag x (s.readV x - s.readV y) (noBorrowFlag (s.readV x) (s.readV y)))

/-- R129: the source shifted right by one, VF its bit 0. -/
def execShr (x y : Nibble) (s : State) : Host.Outcome State Fault Refusal :=
  .next (s.writeResultFlag x (s.shiftSource x y >>> 1) (shiftedOutRight (s.shiftSource x y)))

/-- R130: VY - VX mod 256, VF the no-borrow flag. -/
def execSubn (x y : Nibble) (s : State) : Host.Outcome State Fault Refusal :=
  .next (s.writeResultFlag x (s.readV y - s.readV x) (noBorrowFlag (s.readV y) (s.readV x)))

/-- R131: the source shifted left by one mod 256, VF its bit 7. -/
def execShl (x y : Nibble) (s : State) : Host.Outcome State Fault Refusal :=
  .next (s.writeResultFlag x (s.shiftSource x y <<< 1) (shiftedOutLeft (s.shiftSource x y)))

end Sys2Proof.Machine
end

