-- ==== Sys2Proof/Machine/Draw.lean ====
section
/-! DEFINITION. The display instructions (43_display.md). -/

namespace Sys2Proof.Machine

/-- R151: every cell off; VF is not changed. -/
def execCls (s : State) : Host.Outcome State Fault Refusal := .next (s.setDisp Display.blank)

/-- The sprite at I, `n` rows, XORed onto the display from `(V[X], V[Y])` (R152). -/
def State.drawSprite (s : State) (x y : Nibble) (n : Nat) : Canvas :=
  Canvas.drawRows s.spriteRow (s.readV x).toNat (s.readV y).toNat { grid := s.disp, hit := false } n

/-- R152: draw, then VF <- hit; the coordinates and I are read before any write. -/
def execDrw (x y n : Nibble) (s : State) : Host.Outcome State Fault Refusal :=
  .next ((s.setDisp (s.drawSprite x y n.toNat).grid).writeV vf (flagByte (s.drawSprite x y n.toNat).hit))

end Sys2Proof.Machine
end

