-- ==== Sys2Proof/Machine/Flow.lean ====
section
/-! DEFINITION. Control flow (40_flow.md). In every meaning pc already holds the instruction's address plus 2 (10_state.md R25). -/

namespace Sys2Proof.Machine

/-- R100: `(nothing)`; NNN is ignored. -/
def execSys (_nnn : Addr) (s : State) : Host.Outcome State Fault Refusal := .next s

/-- R102: STACK_UNDERFLOW when sp = 0, else pop the return address into pc. -/
def execRet (s : State) : Host.Outcome State Fault Refusal :=
  match s.pop with
  | none => .next (s.takeFault .stackUnderflow)
  | some (s', a) => .next (s'.setPc a)

/-- R103: `pc <- NNN`. -/
def execJp (nnn : Addr) (s : State) : Host.Outcome State Fault Refusal := .next (s.setPc (addrOperand nnn))

/-- R104: STACK_OVERFLOW when sp = 16, else push pc and jump. -/
def execCall (nnn : Addr) (s : State) : Host.Outcome State Fault Refusal :=
  match s.push s.pc with
  | none => .next (s.takeFault .stackOverflow)
  | some s' => .next (s'.setPc (addrOperand nnn))

/-- R105: `if V[X] = NN: skip`. -/
def execSeImm (x : Nibble) (nn : Byte) (s : State) : Host.Outcome State Fault Refusal :=
  .next (s.skipIf (decide (s.readV x = nn)))

/-- R106: `if V[X] != NN: skip`. -/
def execSneImm (x : Nibble) (nn : Byte) (s : State) : Host.Outcome State Fault Refusal :=
  .next (s.skipIf (decide (s.readV x ≠ nn)))

/-- R107: `if V[X] = V[Y]: skip`. -/
def execSeReg (x y : Nibble) (s : State) : Host.Outcome State Fault Refusal :=
  .next (s.skipIf (decide (s.readV x = s.readV y)))

/-- R108: `if V[X] != V[Y]: skip`. -/
def execSneReg (x y : Nibble) (s : State) : Host.Outcome State Fault Refusal :=
  .next (s.skipIf (decide (s.readV x ≠ s.readV y)))

end Sys2Proof.Machine
end

