-- ==== Sys2Proof/Machine/IndexJump.lean ====
section
/-! DEFINITION. Index load, computed jump and random byte (42_index_jump_random.md). -/

namespace Sys2Proof.Machine

/-- R140: `I <- NNN`. -/
def execLdI (nnn : Addr) (s : State) : Host.Outcome State Fault Refusal := .next (s.writeI (addrOperand nnn))

/-- R141: `pc <- addr(V[0] + NNN)`. -/
def execJpV0 (nnn : Addr) (s : State) : Host.Outcome State Fault Refusal := .next (s.setPc (s.offsetTarget nnn))

/-- R142: `r <- draw_random_byte(); V[X] <- r & NN`. -/
def execRnd (x : Nibble) (nn : Byte) (s : State) : Host.Outcome State Fault Refusal :=
  .next (s.drawRandomByte.2.writeV x (s.drawRandomByte.1 &&& nn))

end Sys2Proof.Machine
end

