-- ==== Sys2Proof/Machine/IndexMemory.lean ====
section
/-! DEFINITION. Index arithmetic, font address, BCD and block transfer (46_index_memory.md). -/

namespace Sys2Proof.Machine

/-- R180: `I <- addr(I + V[X])`, no flag. -/
def execAddIVx (x : Nibble) (s : State) : Host.Outcome State Fault Refusal :=
  .next (s.writeI (addr (s.i.toNat + (s.readV x).toNat)))

/-- R181: `I <- 0x050 + V[X] * 5`. -/
def execLdFVx (x : Nibble) (s : State) : Host.Outcome State Fault Refusal := .next (s.writeI (s.glyphAddr x))

/-- R182: the decimal digits of V[X] to I, I+1, I+2. -/
def execLdBVx (x : Nibble) (s : State) : Host.Outcome State Fault Refusal :=
  .next (s.memWriteList s.i.toNat (decimalDigits (s.readV x)))

/-- R183: V0..VX to memory from I, then `I <- addr(I + X + 1)`. -/
def execLdMemVx (x : Nibble) (s : State) : Host.Outcome State Fault Refusal :=
  .next ((s.storeRegs s.i.toNat (blockCount x)).writeI (addr (s.i.toNat + blockCount x)))

/-- R184: V0..VX from memory at I, then `I <- addr(I + X + 1)`. -/
def execLdVxMem (x : Nibble) (s : State) : Host.Outcome State Fault Refusal :=
  .next ((s.loadRegs s.i.toNat (blockCount x)).writeI (addr (s.i.toNat + blockCount x)))

end Sys2Proof.Machine
end

