-- ==== Sys2Proof/Machine/Keypad.lean ====
section
/-! DEFINITION. The keypad instructions (44_keypad.md). -/

namespace Sys2Proof.Machine

/-- R161: KEY_INDEX_RANGE when V[X] > 15, else `if key[k] = 1: skip`. -/
def execSkp (x : Nibble) (s : State) : Host.Outcome State Fault Refusal :=
  match s.keyIndex x with
  | none => .next (s.takeFault .keyIndexRange)
  | some k => .next (s.skipIf (s.keyDown k))

/-- R162: KEY_INDEX_RANGE when V[X] > 15, else `if key[k] = 0: skip`. -/
def execSknp (x : Nibble) (s : State) : Host.Outcome State Fault Refusal :=
  match s.keyIndex x with
  | none => .next (s.takeFault .keyIndexRange)
  | some k => .next (s.skipIf (!s.keyDown k))

/-- R163: the least pressed key to V[X]; with none pressed, pc back to this instruction. -/
def execLdVxK (x : Nibble) (s : State) : Host.Outcome State Fault Refusal :=
  match s.leastKey with
  | some k => .next (s.writeV x (BitVec.ofNat 8 k.val))
  | none => .next (s.setPc s.instrAddr)

end Sys2Proof.Machine
end

