-- ==== Sys2Proof/Machine/Timers.lean ====
section
/-! DEFINITION. The timer instructions (45_timers.md). The countdown is the TICK command, in Commands.lean. -/

namespace Sys2Proof.Machine

/-- R170: `V[X] <- DT`. -/
def execLdVxDt (x : Nibble) (s : State) : Host.Outcome State Fault Refusal := .next (s.writeV x s.dt)

/-- R171: `DT <- V[X]`. -/
def execLdDtVx (x : Nibble) (s : State) : Host.Outcome State Fault Refusal := .next (s.writeDt (s.readV x))

/-- R172: `ST <- V[X]`. -/
def execLdStVx (x : Nibble) (s : State) : Host.Outcome State Fault Refusal := .next (s.writeSt (s.readV x))

end Sys2Proof.Machine
end

