-- ==== Sys2Proof/Machine/Step.lean ====
section
/-! DEFINITION. The STEP command (30_encoding.md R74), and how the host puts an instruction in front of it. -/

namespace Sys2Proof.Machine

/-- One STEP (R74): nothing while halted (60_exceptions.md R203); else fetch, advance pc, decode, execute. An unrecognized
word is a no-op (R77). A fault is taken inside the meaning that raises it (R202). -/
def step (s : State) : Host.Outcome State Fault Refusal :=
  if s.halted then .next s
  else
    match decode s.fetchWord with
    | .ok i => exec i s.advancePc
    | .error _ => .next s.advancePc

/-- `s` with the instruction that the opcode table numbers `w` stored at pc, high byte first (20_memory.md R55), so that the
next step runs it. A halted core fetches nothing (R203), so the halt is lifted; nothing else changes.
DESIGN CHOICE, log 10: this stands for the host's LOAD. -/
def State.withFetchWord (s : State) (nbits w : Nat) : State :=
  { s.memWriteList s.pc.toNat [highByte (tableWord nbits w), lowByte (tableWord nbits w)] with halted := false }

end Sys2Proof.Machine
end

