-- ==== Sys2Proof/Machine/Commands.lean ====
section
/-! DEFINITION. The host interface (60_exceptions.md R211): the commands RESET, STEP, TICK, LOAD and KEY, any schedule of them, and the three read ports. -/

namespace Sys2Proof.Machine

/-- A byte counted down by one, stopping at zero (R208). -/
def countDown (b : Byte) : Byte := if b = 0 then 0 else b - 1

/-- TICK (R208): both timers count down; nothing else, halted or not. -/
def State.tick (s : State) : State := { s with dt := countDown s.dt, st := countDown s.st }

/-- KEY(k, b) (R212): `key[k] <- b`. -/
def State.setKey (s : State) (k : Fin 16) (b : Bool) : State := { s with key := s.key.set k.val b }

/-- MAX_PROG, 4096 - 0x200 = 3584 bytes (00_scope.md R7). -/
def maxProgram : Nat := 4096 - 0x200

/-- What LOAD returns (R211). -/
inductive LoadResult where
  | ok
  | fail
deriving DecidableEq, Repr

/-- LOAD(bytes) (70_reset_and_hazards.md R233, R234): refused with no change when longer than 3584 bytes, else stored from
0x200 upwards; nothing else is written, halted or not. -/
def State.load (s : State) (bytes : List Byte) : State × LoadResult :=
  if bytes.length > maxProgram then (s, .fail) else (s.memWriteList 0x200 bytes, .ok)

/-- RESET (R231) of a running core: every part of the state to its reset value, for the same configuration (10_state.md R36).
The random source is seeded anew: its counter moves on, so that no later draw is tied to an earlier one.
DESIGN CHOICE, safe, log 3; across two runs, log 23. -/
def State.applyReset (s : State) : State := State.resetWith s.config (s.rng + 1)

/-- The host's commands (R211). They never overlap (00_scope.md R6), so a schedule is a list of them. -/
inductive Command where
  | reset
  | step
  | tick
  | load (bytes : List Byte)
  | key (k : Fin 16) (b : Bool)
deriving DecidableEq, Repr

/-- The effect of one command on the state. -/
def runCommand (c : Command) (s : State) : Host.Outcome State Fault Refusal :=
  match c with
  | .reset => .next s.applyReset
  | .step => step s
  | .tick => .next s.tick
  | .load bytes => .next (s.load bytes).1
  | .key k b => .next (s.setKey k b)

/-- A run: a finite sequence of commands (R218), in the host's order (R59). -/
def runCommands (cs : List Command) (s : State) : Host.Outcome State Fault Refusal :=
  match cs with
  | [] => .next s
  | c :: rest =>
    match runCommand c s with
    | .next s' => runCommands rest s'
    | .fault r => .fault r
    | .refused r => .refused r

/-- The DISPLAY port (R213). -/
def State.displayPort (s : State) : Display := s.disp

/-- The AUDIO port, `ST != 0` (R210). -/
def State.audioPort (s : State) : Bool := decide (s.st ≠ 0)

/-- What the DEBUG port returns (R214). -/
structure DebugView where
  v          : Vector Byte 16
  i          : Word
  pc         : Word
  sp         : Fin 17
  stack      : Vector Word 16
  dt         : Byte
  st         : Byte
  halted     : Bool
  faultCause : BitVec 2
  faultPc    : Word
deriving DecidableEq, Repr

/-- The DEBUG port (R214), read-only. -/
def State.debugPort (s : State) : DebugView where
  v := s.v
  i := s.i
  pc := s.pc
  sp := s.sp
  stack := s.stack
  dt := s.dt
  st := s.st
  halted := s.halted
  faultCause := s.faultCause
  faultPc := s.faultPc

end Sys2Proof.Machine
end

