-- ==== Sys2Proof/WellFormed.lean ====
section
/-! DEFINITION. Which instruction terms stand for a word: all of them but a SYS whose word belongs to CLS or RET (30_encoding.md R75, R76). -/

namespace Sys2Proof

/-- The check on SYS: 0x00E0 and 0x00EE "are taken by CLS and RET first" (30_encoding.md R76). -/
def Instr.sysOperandOk (nnn : Addr) : Bool :=
  nnn != 0x0E0#12 && nnn != 0x0EE#12

/-- An instruction is well formed when some word decodes to it. Every register index, count, immediate and address is in
range by its type ("The X and Y fields are never checked", R75), so SYS is the only instruction with a check. -/
def Instr.WellFormed : Instr → Bool
  | .sys nnn => Instr.sysOperandOk nnn
  | .cls => true
  | .ret => true
  | .jp _ => true
  | .call _ => true
  | .seImm _ _ => true
  | .sneImm _ _ => true
  | .seReg _ _ => true
  | .ldImm _ _ => true
  | .addImm _ _ => true
  | .ldReg _ _ => true
  | .orReg _ _ => true
  | .andReg _ _ => true
  | .xorReg _ _ => true
  | .addReg _ _ => true
  | .sub _ _ => true
  | .shr _ _ => true
  | .subn _ _ => true
  | .shl _ _ => true
  | .sneReg _ _ => true
  | .ldI _ => true
  | .jpV0 _ => true
  | .rnd _ _ => true
  | .drw _ _ _ => true
  | .skp _ => true
  | .sknp _ => true
  | .ldVxDt _ => true
  | .ldVxK _ => true
  | .ldDtVx _ => true
  | .ldStVx _ => true
  | .addIVx _ => true
  | .ldFVx _ => true
  | .ldBVx _ => true
  | .ldMemVx _ => true
  | .ldVxMem _ => true

end Sys2Proof
end

