-- ==== Sys2Proof/Safety.lean ====
section
/-! DEFINITION. The terms claims are stated in: the invariant of reachable states, the verdict on a run, and which parts of the state two states agree on. -/

namespace Sys2Proof.Machine

/-! ### The invariant -/

/-- What every command keeps and RESET establishes: pc, I and the return addresses stay below 4096 (10_state.md R24, R27,
R28), memory keeps its canonical form, and the fault state is clear while the core runs and filled while it is halted
(R35, 60_exceptions.md R202, R203). -/
structure State.Inv (s : State) : Prop where
  pcInRange    : s.pc.toNat < 4096
  iInRange     : s.i.toNat < 4096
  stackInRange : ∀ k : Fin 16, (s.stack[k.val]).toNat < 4096
  memCanonical : Memory.wf (resetByte s.config) s.mem = true
  faultClear   : s.halted = false → s.faultCause = 0 ∧ s.faultPc = 0
  faultFilled  : s.halted = true → s.faultCause ≠ 0 ∧ s.faultPc = s.pc

/-! ### The verdict on a run (60_exceptions.md R203, R218) -/

/-- How the spec's conventions read the end state of a run. -/
inductive Verdict where
  /-- Halted by a fault: "never a good final state" (R203). -/
  | failed
  /-- At a self-jump `1aaa` at address aaa (R218). -/
  | finished
  /-- Neither. -/
  | running
deriving DecidableEq, Repr

/-- The word at pc is a jump to pc itself (40_flow.md R109). -/
def State.atSelfJump (s : State) : Bool := s.fetchWord.toNat == 0x1000 + s.pc.toNat && decide (s.pc.toNat < 4096)

/-- The verdict on an end state. -/
def State.verdict (s : State) : Verdict :=
  if s.halted then .failed else if s.atSelfJump then .finished else .running

/-- A run is safe when its end state is not a failed one. -/
def State.Safe (s : State) : Prop := s.verdict ≠ .failed

/-! ### Parts of the state and frames -/

/-- The parts of the state of R20, each register, byte, cell and key on its own. -/
inductive Part where
  | v (x : Nibble)
  | pc
  | i
  | stackEntry (k : Fin 16)
  | sp
  | dt
  | st
  | memByte (a : Fin 4096)
  | cell (x : Fin 64) (y : Fin 32)
  | key (k : Fin 16)
  | rng
  /-- halted, fault_cause and fault_pc together. -/
  | fault
  /-- COMPAT_MODE and FONT. -/
  | config
deriving DecidableEq, Repr

/-- The two states hold the same value in a part. Memory is compared through the read of one byte. -/
def Part.Agrees (s t : State) : Part → Prop
  | .v x => t.readV x = s.readV x
  | .pc => t.pc = s.pc
  | .i => t.i = s.i
  | .stackEntry k => t.stack[k.val] = s.stack[k.val]
  | .sp => t.sp = s.sp
  | .dt => t.dt = s.dt
  | .st => t.st = s.st
  | .memByte a => t.memRead a.val = s.memRead a.val
  | .cell x y => t.disp.cell x.val y.val = s.disp.cell x.val y.val
  | .key k => t.keyDown k = s.keyDown k
  | .rng => t.rng = s.rng
  | .fault => t.halted = s.halted ∧ t.faultCause = s.faultCause ∧ t.faultPc = s.faultPc
  | .config => t.config = s.config

/-- From `s` to `t` nothing changes outside the parts `P`: the frame of an instruction or a command. -/
def ChangesOnly (P : Part → Prop) (s t : State) : Prop := ∀ p, ¬ P p → p.Agrees s t

/-- A byte of memory at one of the `n` addresses from `base` on, each reduced mod 4096 (20_memory.md R51). -/
def Part.inBlock (base n : Nat) (p : Part) : Prop :=
  ∃ k, k < n ∧ ∃ a : Fin 4096, p = .memByte a ∧ a.val = (base + k) % 4096

/-- One of the registers V0 to VX. -/
def Part.upToV (x : Nibble) (p : Part) : Prop := ∃ j : Nibble, j.toNat ≤ x.toNat ∧ p = .v j

/-! ### What the rules name -/

/-- The word numbered `n` decodes to `i`. -/
def Encodes (n : Nat) (i : Instr) : Prop := decode (BitVec.ofNat 16 n) = .ok i

/-- The sprite at I has a set pixel that falls on the cell (cx, cy), after the wrap of both axes (43_display.md R152, R153):
row r of N is the byte at I + r, and column c is its bit 7 - c. -/
def State.SpriteCovers (s : State) (x y n : Nibble) (cx : Fin 64) (cy : Fin 32) : Prop :=
  ∃ r, r < n.toNat ∧ ∃ c, c < 8 ∧ cx.val = ((s.readV x).toNat + c) % 64 ∧ cy.val = ((s.readV y).toNat + r) % 32 ∧
    (s.memRead (s.i.toNat + r)).getLsbD (7 - c) = true

/-- The same state in a core of the other compatibility mode. -/
def State.withMode (s : State) (m : CompatMode) : State := { s with config := { s.config with compatMode := m } }

end Sys2Proof.Machine

namespace Sys2Proof

open Machine

/-- The writers of VF, the table of 10_state.md R23. -/
def Instr.writesVf (m : CompatMode) : Instr → Bool
  | .addReg _ _ | .sub _ _ | .subn _ _ | .shr _ _ | .shl _ _ | .drw _ _ _ => true
  | .orReg x _ | .andReg x _ | .xorReg x _ => decide (m = .cosmac) || decide (x = vf)
  | .ldImm x _ | .addImm x _ | .ldReg x _ | .rnd x _ | .ldVxDt x | .ldVxK x | .ldVxMem x => decide (x = vf)
  | .sys _ | .cls | .ret | .jp _ | .call _ | .seImm _ _ | .sneImm _ _ | .seReg _ _ | .sneReg _ _ | .ldI _ | .jpV0 _
  | .skp _ | .sknp _ | .ldDtVx _ | .ldStVx _ | .addIVx _ | .ldFVx _ | .ldBVx _ | .ldMemVx _ => false

/-- The eleven instructions that write pc again during execute (R25). -/
def Instr.writesPc : Instr → Bool
  | .ret | .jp _ | .call _ | .jpV0 _ | .seImm _ _ | .sneImm _ _ | .seReg _ _ | .sneReg _ _ | .skp _ | .sknp _ | .ldVxK _ => true
  | .sys _ | .cls | .ldImm _ _ | .addImm _ _ | .ldReg _ _ | .orReg _ _ | .andReg _ _ | .xorReg _ _ | .addReg _ _ | .sub _ _
  | .shr _ _ | .subn _ _ | .shl _ _ | .ldI _ | .rnd _ _ | .drw _ _ _ | .ldVxDt _ | .ldDtVx _ | .ldStVx _ | .addIVx _
  | .ldFVx _ | .ldBVx _ | .ldMemVx _ | .ldVxMem _ => false

/-- The instructions whose effect COMPAT_MODE changes (41_alu.md R132). -/
def Instr.modeDependent : Instr → Bool
  | .orReg _ _ | .andReg _ _ | .xorReg _ _ | .shr _ _ | .shl _ _ => true
  | .sys _ | .cls | .ret | .jp _ | .call _ | .seImm _ _ | .sneImm _ _ | .seReg _ _ | .sneReg _ _ | .ldImm _ _ | .addImm _ _
  | .ldReg _ _ | .addReg _ _ | .sub _ _ | .subn _ _ | .ldI _ | .jpV0 _ | .rnd _ _ | .drw _ _ _ | .skp _ | .sknp _
  | .ldVxDt _ | .ldVxK _ | .ldDtVx _ | .ldStVx _ | .addIVx _ | .ldFVx _ | .ldBVx _ | .ldMemVx _ | .ldVxMem _ => false

/-- The instruction raises the fault with code `c` in the state `s`: the table of 60_exceptions.md R201. -/
def Instr.FaultsWith (i : Instr) (s : State) (c : BitVec 2) : Prop :=
  ((∃ nnn, i = .call nnn) ∧ s.sp.val = 16 ∧ c = 1) ∨
  (i = .ret ∧ s.sp.val = 0 ∧ c = 2) ∨
  ((∃ x, (i = .skp x ∨ i = .sknp x) ∧ 15 < (s.readV x).toNat) ∧ c = 3)

end Sys2Proof
end

