-- ==== Sys2Proof/Certificates/Slice0/Obligations.lean ====
section
/-! DEFINITION. The statements for the provers. Each docstring names the rule of spec/ a statement formalises, and every clause that rests on a decision of the spec or of the model. In a statement about `exec`, pc already holds the instruction's address plus 2 (10_state.md R25), as `StepRunsTheDecodedInstruction` says. -/

open Sys2Proof Sys2Proof.Machine

/-! ### Encoding -/

/-- Words written out from the patterns of 30_encoding.md R76 decode to the instructions they stand for, one or more of
each format, and a word of each unrecognized set to none. That 0x0123 is SYS is the spec's own decision D15, and that 0x5AB1
and 0x9AB8 are unrecognized is D16 (log 17); the names of the rejections are the model's (log 9). -/
def Obligations.WrittenOutWordsDecode : Prop :=
  Encodes 0x0123 (.sys 0x123) ∧ Encodes 0x00E0 .cls ∧ Encodes 0x00EE .ret ∧ Encodes 0x1ABC (.jp 0xABC) ∧
  Encodes 0x2345 (.call 0x345) ∧ Encodes 0x3A42 (.seImm 0xA 0x42) ∧ Encodes 0x5120 (.seReg 1 2) ∧
  Encodes 0x6AFF (.ldImm 0xA 0xFF) ∧ Encodes 0x8344 (.addReg 3 4) ∧ Encodes 0x812E (.shl 1 2) ∧
  Encodes 0xA123 (.ldI 0x123) ∧ Encodes 0xC30F (.rnd 3 0x0F) ∧ Encodes 0xD125 (.drw 1 2 5) ∧
  Encodes 0xE59E (.skp 5) ∧ Encodes 0xF407 (.ldVxDt 4) ∧ Encodes 0xF355 (.ldMemVx 3) ∧
  decode 0x5AB1 = .error (.unrecognized5 1) ∧ decode 0x8008 = .error (.unrecognized8 8) ∧
  decode 0x9AB8 = .error (.unrecognized9 8) ∧ decode 0xE59F = .error (.unrecognizedE 0x9F) ∧
  decode 0xF012 = .error (.unrecognizedF 0x12)

/-- Decoding the word of a well-formed instruction gives that instruction back, whatever its operands, as a word and as the
two bytes in memory (30_encoding.md R70 to R76). -/
def Obligations.DecodeOfEncodeIsTheInstruction : Prop :=
  ∀ i : Instr, i.WellFormed = true →
    decode (encode i) = .ok i ∧ ∀ rest, decodeBytes (encodeBytes i ++ rest) = .ok (i, rest)

/-- A word that decodes to an instruction is that instruction's encoding, and the instruction is well formed: no bit of a
recognized word is dropped (30_encoding.md R72, R79). -/
def Obligations.EncodeOfDecodeIsTheWord : Prop :=
  ∀ (w : Word) (i : Instr), decode w = .ok i → i.WellFormed = true ∧ encode i = w

/-- The decoder is the opcode map of 30_encoding.md R76: 35 rows; a word some row selects decodes to an instruction of that
row, but that CLS and RET take their words before SYS; and an instruction's word selects its row. -/
def Obligations.DecoderIsTheOpcodeMap : Prop :=
  opcodeRows.length = 35 ∧
  (∀ (w : Word) (r : OpcodeRow), r ∈ opcodeRows → r.selects w = true →
    ∃ i, decode w = .ok i ∧ (i.row = r ∨ (r = ⟨0xF000, 0x0000⟩ ∧ (i = .cls ∧ w = 0x00E0 ∨ i = .ret ∧ w = 0x00EE)))) ∧
  ∀ (w : Word) (i : Instr), decode w = .ok i → i.row ∈ opcodeRows ∧ i.row.selects w = true

/-- The words that decode to nothing are exactly the five sets of 30_encoding.md R77. That 5XYf and 9XYf with f != 0 are
among them is the spec's own decision D16 (log 17). -/
def Obligations.UnrecognizedWordsAreTheFiveSets : Prop :=
  ∀ w : Word, (∃ r, decode w = .error r) ↔
    (w.toNat / 4096 = 0x5 ∧ w.toNat % 16 ≠ 0) ∨
    (w.toNat / 4096 = 0x9 ∧ w.toNat % 16 ≠ 0) ∨
    (w.toNat / 4096 = 0x8 ∧ w.toNat % 16 ∈ [0x8, 0x9, 0xA, 0xB, 0xC, 0xD, 0xF]) ∨
    (w.toNat / 4096 = 0xE ∧ w.toNat % 256 ∉ [0x9E, 0xA1]) ∨
    (w.toNat / 4096 = 0xF ∧ w.toNat % 256 ∉ [0x07, 0x0A, 0x15, 0x18, 0x1E, 0x29, 0x33, 0x55, 0x65])

/-! ### Reset -/

/-- After RESET, of whatever core and from whatever state, pc is 0x200 and the first STEP fetches the word at 0x200 and runs
the instruction it decodes to (70_reset_and_hazards.md R232); and so for the state `State.reset`. -/
def Obligations.ResetStartsAt0x200 : Prop :=
  ∀ t : State, (t = State.reset ∨ ∃ s : State, t = s.applyReset) →
    t.pc = 0x200 ∧ t.fetchWord = wordOfBytes (t.memRead 0x200) (t.memRead 0x201) ∧
    ∀ i, decode (wordOfBytes (t.memRead 0x200) (t.memRead 0x201)) = .ok i → step t = exec i t.advancePc

/-- After RESET every part of the state holds the value of 10_state.md R38, but the random source, of which nothing is said.
The zeros are the spec's own decisions D9 and D17 (log 6, log 7); the font is the core's own FONT, whatever it is (D18). -/
def Obligations.ResetLeavesZerosAndTheFont : Prop :=
  ∀ s : State,
    (∀ x, s.applyReset.readV x = 0) ∧ s.applyReset.i = 0 ∧ s.applyReset.sp = 0 ∧
    (∀ k : Fin 16, s.applyReset.stack[k.val] = 0) ∧ s.applyReset.dt = 0 ∧ s.applyReset.st = 0 ∧
    (∀ (x : Fin 64) (y : Fin 32), s.applyReset.disp.cell x.val y.val = false) ∧
    (∀ k, s.applyReset.keyDown k = false) ∧
    s.applyReset.halted = false ∧ s.applyReset.faultCause = 0 ∧ s.applyReset.faultPc = 0 ∧
    s.applyReset.config = s.config ∧
    (∀ k : Fin 80, s.applyReset.memRead (0x050 + k.val) = s.config.font[k.val]) ∧
    ∀ a, a < 0x050 ∨ (0x0A0 ≤ a ∧ a < 0x1000) → s.applyReset.memRead a = 0

/-! ### The invariant -/

/-- The invariant holds right after reset, whatever the configuration and wherever the random source stands. -/
def Obligations.InvariantHoldsAtReset : Prop :=
  State.reset.Inv ∧ ∀ (c : Config) (n : Nat), (State.resetWith c n).Inv

/-- Every STEP keeps the invariant, from every state that has it: pc, I and the return addresses stay below 4096 (10_state.md
R24, R27, R28), memory keeps its canonical form, and the fault state matches the halt (R35). The mod-4096 arithmetic and
the fault state are the spec's own decisions D2, D4, D9 (log 13, log 18); the canonical form is the model's (log 7). -/
def Obligations.StepKeepsTheInvariant : Prop :=
  ∀ s t : State, s.Inv → step s = .next t → t.Inv

/-- Every schedule of host commands completes and keeps the invariant: RESET, STEP, TICK, LOAD and KEY in any order and
number (00_scope.md R6, 60_exceptions.md R218). -/
def Obligations.EveryScheduleKeepsTheInvariant : Prop :=
  ∀ (cs : List Command) (s : State), s.Inv → ∃ t, runCommands cs s = .next t ∧ t.Inv

/-! ### STEP -/

/-- STEP of a running core whose word at pc decodes to `i` is `exec i` of the state with pc advanced by 2 mod 4096 and
nothing else changed (30_encoding.md R74; the wrap is the spec's decision D2, log 13). -/
def Obligations.StepRunsTheDecodedInstruction : Prop :=
  ∀ (s : State) (i : Instr), s.halted = false → decode s.fetchWord = .ok i →
    step s = exec i s.advancePc ∧ s.advancePc.pc.toNat = (s.pc.toNat + 2) % 4096 ∧ ChangesOnly (· = .pc) s s.advancePc

/-- The word fetched is the two bytes at pc and pc + 1, the one at the lower address high (20_memory.md R55), each address
mod 4096 (R51, the spec's decision D3, log 13): the fetch at 0xFFF takes its low byte from 0x000 (R62). -/
def Obligations.FetchIsBigEndian : Prop :=
  ∀ s : State,
    s.fetchWord.toNat = 256 * (s.memRead (s.pc.toNat % 4096)).toNat + (s.memRead ((s.pc.toNat + 1) % 4096)).toNat

/-- STEP of a running core at an unrecognized word advances pc by 2 mod 4096 and changes nothing else (30_encoding.md R77;
the wrap is D2, log 13). -/
def Obligations.UnrecognizedWordOnlyAdvancesPc : Prop :=
  ∀ (s : State) (r : DecodeReject), s.halted = false → decode s.fetchWord = .error r →
    ∃ t, step s = .next t ∧ t.pc.toNat = (s.pc.toNat + 2) % 4096 ∧ ChangesOnly (· = .pc) s t

/-- No word traps and no access stops the machine: every STEP of every state has a next state, and so has every instruction
(30_encoding.md R78, R79; 20_memory.md R54). -/
def Obligations.NoStepEverStops : Prop :=
  (∀ s : State, ∃ t, step s = .next t) ∧ ∀ (i : Instr) (s : State), ∃ t, exec i s = .next t

/-- A jump to its own address is a fixed point of STEP (40_flow.md R109): it changes nothing and is not a halt. -/
def Obligations.SelfJumpIsAFixedPoint : Prop :=
  ∀ s : State, s.halted = false → s.pc.toNat < 4096 → s.fetchWord.toNat = 0x1000 + s.pc.toNat →
    step s = .next s ∧ s.verdict = .finished

/-! ### Memory -/

/-- A read after a store gives the byte stored, at every address that reduces to the same byte, and what it gave before at
every other (20_memory.md R51, R58, R59). That memory is canonical is an invariant of the model (log 7). -/
def Obligations.ReadAfterWrite : Prop :=
  ∀ (s : State) (a b : Nat) (v : Byte), Memory.wf (resetByte s.config) s.mem = true →
    (s.memWrite a v).memRead b = (if b % 4096 = a % 4096 then v else s.memRead b) ∧
    Memory.wf (resetByte s.config) (s.memWrite a v).mem = true

/-- A word stored by FX55 or FX33, or put in place by LOAD, is the word the next fetch of its address reads
(70_reset_and_hazards.md R238, 20_memory.md R61; that there is no cache in between is the spec's decision D25, log 19). -/
def Obligations.StoredWordIsFetchedNext : Prop :=
  ∀ s t : State, Memory.wf (resetByte s.config) s.mem = true →
    (∀ x j : Nibble, exec (.ldMemVx x) s = .next t → j.toNat < x.toNat →
      t.pc.toNat % 4096 = (s.i.toNat + j.toNat) % 4096 → t.fetchWord = wordOfBytes (s.readV j) (s.readV (j + 1))) ∧
    (∀ x : Nibble, exec (.ldBVx x) s = .next t → t.pc.toNat % 4096 = s.i.toNat % 4096 →
      t.fetchWord.toNat = (s.readV x).toNat / 100 * 256 + (s.readV x).toNat / 10 % 10) ∧
    ∀ (bytes : List Byte) (k : Nat) (h : k + 1 < bytes.length), s.load bytes = (t, .ok) → t.pc.toNat = 0x200 + k →
      t.fetchWord = wordOfBytes bytes[k] bytes[k + 1]

/-! ### Faults (60_exceptions.md R201 to R204), all of them decisions D6 to D9 of the spec (log 18) -/

/-- Each form of the table of 60_exceptions.md R201 takes its fault: CALL with the stack full code 1, RET with it empty code
2, SKP and SKNP with V[X] > 15 code 3 (40_flow.md R102, R104; 44_keypad.md R160 to R162). The entry (R202) puts pc back to
the instruction, records the fault, halts, and changes nothing else: the instruction commits none of its own effects. -/
def Obligations.FaultingFormsTakeTheirFault : Prop :=
  ∀ (i : Instr) (s : State) (c : BitVec 2), i.FaultsWith s c →
    ∃ t, exec i s = .next t ∧ t.halted = true ∧ t.faultCause = c ∧
      t.pc.toNat = (s.pc.toNat + 4094) % 4096 ∧ t.faultPc = t.pc ∧ ChangesOnly (· ∈ [.pc, .fault]) s t

/-- A STEP halts a running core exactly when it runs one of the forms of 60_exceptions.md R201, with that form's code, and
never at an unrecognized word. The entry is precise (R202): pc and fault_pc are the address of the faulting instruction
and nothing else differs from the state before the STEP. -/
def Obligations.OnlyTheThreeFaultsHaltAndPrecisely : Prop :=
  ∀ s t : State, s.Inv → s.halted = false → step s = .next t →
    (∀ i, decode s.fetchWord = .ok i →
      (t.halted = true ↔ ∃ c, i.FaultsWith s c) ∧ ∀ c, i.FaultsWith s c → t.faultCause = c) ∧
    (∀ r, decode s.fetchWord = .error r → t.halted = false) ∧
    (t.halted = true → t.pc = s.pc ∧ t.faultPc = s.pc ∧ ChangesOnly (· = .fault) s t)

/-- While halted, STEP does nothing: no fetch, and no change to any state; and only RESET clears the halt (60_exceptions.md
R203, R204): under any schedule of the other commands a halted core stays halted with the same fault, and only the timers,
memory and the keys can change. -/
def Obligations.OnlyResetClearsAHalt : Prop :=
  ∀ s : State, s.halted = true → step s = .next s ∧
    ∀ (cs : List Command) (t : State), Command.reset ∉ cs → runCommands cs s = .next t →
      t.halted = true ∧ t.verdict = .failed ∧
      ChangesOnly (fun p => p = .dt ∨ p = .st ∨ (∃ a, p = .memByte a) ∨ ∃ k, p = .key k) s t

/-! ### Control flow (40_flow.md, 42_index_jump_random.md) -/

/-- SYS does nothing (40_flow.md R100; that 0NNN is a no-op is the spec's decision D15, log 17). -/
def Obligations.SysIsANoOp : Prop :=
  ∀ (nnn : Addr) (s : State),
    ((Instr.sys nnn).WellFormed = true → Encodes nnn.toNat (.sys nnn)) ∧ exec (.sys nnn) s = .next s

/-- JP: pc <- NNN and nothing else (40_flow.md R103); any target, odd ones and those below 0x200 included. -/
def Obligations.JpSetsPc : Prop :=
  ∀ (nnn : Addr) (s : State),
    Encodes (0x1000 + nnn.toNat) (.jp nnn) ∧
    ∃ t, exec (.jp nnn) s = .next t ∧ t.pc.toNat = nnn.toNat ∧ ChangesOnly (· = .pc) s t

/-- JP V0: pc <- (V0 + NNN) mod 4096, whatever the X nibble, and nothing else (42_index_jump_random.md R141; the wrap is the
spec's decision D2, log 13). -/
def Obligations.JpV0AddsV0 : Prop :=
  ∀ (nnn : Addr) (s : State),
    Encodes (0xB000 + nnn.toNat) (.jpV0 nnn) ∧
    ∃ t, exec (.jpV0 nnn) s = .next t ∧ t.pc.toNat = ((s.readV 0).toNat + nnn.toNat) % 4096 ∧ ChangesOnly (· = .pc) s t

/-- CALL with room: the return address, pc after the fetch, goes to stack[sp], sp counts it, and pc <- NNN (40_flow.md R104,
10_state.md R28; the stack's shape is the spec's decision D5, log 11). -/
def Obligations.CallPushesTheReturnAddress : Prop :=
  ∀ (nnn : Addr) (s : State) (h : s.sp.val < 16),
    Encodes (0x2000 + nnn.toNat) (.call nnn) ∧
    ∃ t, exec (.call nnn) s = .next t ∧ t.stack[s.sp.val] = s.pc ∧ t.sp.val = s.sp.val + 1 ∧ t.pc.toNat = nnn.toNat ∧
      ChangesOnly (· ∈ [.pc, .sp, .stackEntry ⟨s.sp.val, h⟩]) s t

/-- RET with an entry: sp counts it off and pc is the entry, which is not cleared (40_flow.md R102, 10_state.md R28; D5,
log 11). -/
def Obligations.RetPopsTheReturnAddress : Prop :=
  ∀ (s : State) (h : 0 < s.sp.val),
    Encodes 0x00EE .ret ∧
    ∃ t, exec .ret s = .next t ∧ t.sp.val = s.sp.val - 1 ∧ t.pc = s.stack[s.sp.val - 1] ∧
      ChangesOnly (· ∈ [.pc, .sp]) s t

/-- "2NNN/00EE round-trip" (95_test_vectors.md SV8): a CALL followed by a RET restores pc to the instruction after the CALL,
and sp; only the stale stack entry tells. -/
def Obligations.CallThenRetComesBack : Prop :=
  ∀ (nnn : Addr) (s t : State) (h : s.sp.val < 16), exec (.call nnn) s = .next t →
    ∃ u, exec .ret t.advancePc = .next u ∧ u.pc = s.pc ∧ u.sp = s.sp ∧
      ChangesOnly (· = .stackEntry ⟨s.sp.val, h⟩) s u

/-- The four register skips: pc <- (pc + 2) mod 4096 once more when the comparison holds, else nothing changes (40_flow.md
R105 to R108; the wrap of R101 is the spec's decision D2, log 13). -/
def Obligations.SkipsCompareAndSkip : Prop :=
  ∀ (x y : Nibble) (nn : Byte) (s : State) (i : Instr) (taken : Prop),
    (i = .seImm x nn ∧ (taken ↔ s.readV x = nn)) ∨ (i = .sneImm x nn ∧ (taken ↔ s.readV x ≠ nn)) ∨
    (i = .seReg x y ∧ (taken ↔ s.readV x = s.readV y)) ∨ (i = .sneReg x y ∧ (taken ↔ s.readV x ≠ s.readV y)) →
    ∃ t, exec i s = .next t ∧ (taken → t.pc.toNat = (s.pc.toNat + 2) % 4096) ∧ (¬ taken → t = s) ∧
      ChangesOnly (· = .pc) s t

/-! ### Loads and arithmetic (41_alu.md) -/

/-- LD VX, NN: V[X] <- NN (41_alu.md R121); LD VX, VY: V[X] <- V[Y], in either mode (R123). Nothing else changes; VF only when
X = F. -/
def Obligations.RegisterLoadsWriteVx : Prop :=
  ∀ (x y : Nibble) (nn : Byte) (s : State),
    Encodes (0x6000 + 256 * x.toNat + nn.toNat) (.ldImm x nn) ∧
    Encodes (0x8000 + 256 * x.toNat + 16 * y.toNat) (.ldReg x y) ∧
    (∃ t, exec (.ldImm x nn) s = .next t ∧ t.readV x = nn ∧ ChangesOnly (· = .v x) s t) ∧
    (∃ t, exec (.ldReg x y) s = .next t ∧ t.readV x = s.readV y ∧ ChangesOnly (· = .v x) s t)

/-- ADD VX, NN: V[X] <- (V[X] + NN) mod 256 and nothing else, no carry recorded (41_alu.md R122). -/
def Obligations.AddImmediateWrapsWithoutCarry : Prop :=
  ∀ (x : Nibble) (nn : Byte) (s : State),
    Encodes (0x7000 + 256 * x.toNat + nn.toNat) (.addImm x nn) ∧
    ∃ t, exec (.addImm x nn) s = .next t ∧ (t.readV x).toNat = ((s.readV x).toNat + nn.toNat) % 256 ∧
      ChangesOnly (· = .v x) s t

/-- OR, AND, XOR: V[X] gets the bitwise result, bit by bit; then VF <- 0 in COSMAC mode, after the result also when X = F, and
VF is left alone in CHIP48 mode (41_alu.md R124 to R126). The modes are the spec's decision D11 and the order D12 (log 5,
log 14). -/
def Obligations.LogicClearsVfOnlyInCosmac : Prop :=
  ∀ (x y : Nibble) (s : State) (i : Instr) (op : Bool → Bool → Bool),
    (i = .orReg x y ∧ op = or) ∨ (i = .andReg x y ∧ op = and) ∨ (i = .xorReg x y ∧ op = xor) →
    ∃ t, exec i s = .next t ∧
      (s.config.compatMode = .cosmac → t.readV vf = 0 ∧ ChangesOnly (· ∈ [.v x, .v vf]) s t) ∧
      (s.config.compatMode = .chip48 → ChangesOnly (· = .v x) s t) ∧
      (x ≠ vf ∨ s.config.compatMode = .chip48 → ∀ k, k < 8 →
        (t.readV x).getLsbD k = op ((s.readV x).getLsbD k) ((s.readV y).getLsbD k))

/-- ADD VX, VY: V[X] gets the sum mod 256 and VF the carry, computed from the sum before truncation; when X = F the carry
wins (41_alu.md R127; that order is the spec's decision D12, log 14). -/
def Obligations.AddRegisterSetsCarry : Prop :=
  ∀ (x y : Nibble) (s : State),
    Encodes (0x8004 + 256 * x.toNat + 16 * y.toNat) (.addReg x y) ∧
    ∃ t, exec (.addReg x y) s = .next t ∧
      t.readV vf = (if (s.readV x).toNat + (s.readV y).toNat > 255 then 1 else 0) ∧
      (x ≠ vf → (t.readV x).toNat = ((s.readV x).toNat + (s.readV y).toNat) % 256) ∧
      ChangesOnly (· ∈ [.v x, .v vf]) s t

/-- SUB and SUBN: V[X] gets the difference mod 256 and VF is 0 when there is a borrow, else 1; when X = F the flag wins
(41_alu.md R128, R130; D12, log 14). -/
def Obligations.SubtractSetsNoBorrow : Prop :=
  ∀ (x y : Nibble) (s : State) (i : Instr) (a b : Byte),
    (i = .sub x y ∧ a = s.readV x ∧ b = s.readV y) ∨ (i = .subn x y ∧ a = s.readV y ∧ b = s.readV x) →
    ∃ t, exec i s = .next t ∧ t.readV vf = (if a.toNat < b.toNat then 0 else 1) ∧
      (x ≠ vf → (t.readV x).toNat = (a.toNat + 256 - b.toNat) % 256) ∧ ChangesOnly (· ∈ [.v x, .v vf]) s t

/-- SHR and SHL: the source, VY in COSMAC mode and VX in CHIP48 mode, shifted by one with a zero entering, to V[X], and the
bit shifted out to VF; when X = F the bit wins (41_alu.md R129, R131, R132; D11, D12, log 5, log 14). -/
def Obligations.ShiftsUseTheModesSource : Prop :=
  ∀ (x y : Nibble) (s : State) (src : Byte),
    (s.config.compatMode = .cosmac → src = s.readV y) → (s.config.compatMode = .chip48 → src = s.readV x) →
    (∃ t, exec (.shr x y) s = .next t ∧ (t.readV vf).toNat = src.toNat % 2 ∧
      (x ≠ vf → (t.readV x).toNat = src.toNat / 2) ∧ ChangesOnly (· ∈ [.v x, .v vf]) s t) ∧
    (∃ t, exec (.shl x y) s = .next t ∧ (t.readV vf).toNat = src.toNat / 128 ∧
      (x ≠ vf → (t.readV x).toNat = src.toNat * 2 % 256) ∧ ChangesOnly (· ∈ [.v x, .v vf]) s t)

/-- COMPAT_MODE changes the effect of 8XY1, 8XY2, 8XY3, 8XY6 and 8XYE and of nothing else: every other instruction does the
same in both modes (41_alu.md R132; the modes are the spec's decision D11, log 5). For RND the two cores take the same draw,
which is the model's choice (log 23). -/
def Obligations.ModeChangesFiveInstructionsOnly : Prop :=
  ∀ (i : Instr) (s t : State) (m : CompatMode), i.modeDependent = false → exec i s = .next t →
    exec i (s.withMode m) = .next (t.withMode m)

/-! ### Index and random (42_index_jump_random.md, 46_index_memory.md) -/

/-- LD I, NNN: I <- NNN and nothing else (42_index_jump_random.md R140). -/
def Obligations.LoadIndexWritesI : Prop :=
  ∀ (nnn : Addr) (s : State),
    Encodes (0xA000 + nnn.toNat) (.ldI nnn) ∧
    ∃ t, exec (.ldI nnn) s = .next t ∧ t.i.toNat = nnn.toNat ∧ ChangesOnly (· = .i) s t

/-- RND: V[X] gets a random byte masked by NN, and the source moves on to its next byte (42_index_jump_random.md R142, R143).
The byte is the free value of the draw counter, and the source moves on by the counter: both are the model's form of the
source (DESIGN CHOICE, log 2; decision D23), and the statement holds for every value of the byte. Bits of V[X] where NN is 0
are 0. -/
def Obligations.RandomByteIsMasked : Prop :=
  ∀ (x : Nibble) (nn : Byte) (s : State),
    Encodes (0xC000 + 256 * x.toNat + nn.toNat) (.rnd x nn) ∧
    ∃ t, exec (.rnd x nn) s = .next t ∧ t.readV x = Config.randomByte s.rng &&& nn ∧
      (∀ k, nn.getLsbD k = false → (t.readV x).getLsbD k = false) ∧ t.rng ≠ s.rng ∧
      ChangesOnly (· ∈ [.v x, .rng]) s t

/-- ADD I, VX: I <- (I + V[X]) mod 4096, no flag (46_index_memory.md R180); LD F, VX: I <- 0x050 + 5 * V[X], VX not masked
(R181). Nothing else changes. -/
def Obligations.IndexArithmetic : Prop :=
  ∀ (x : Nibble) (s : State),
    Encodes (0xF01E + 256 * x.toNat) (.addIVx x) ∧ Encodes (0xF029 + 256 * x.toNat) (.ldFVx x) ∧
    (∃ t, exec (.addIVx x) s = .next t ∧ t.i.toNat = (s.i.toNat + (s.readV x).toNat) % 4096 ∧
      ChangesOnly (· = .i) s t) ∧
    (∃ t, exec (.ldFVx x) s = .next t ∧ t.i.toNat = 0x050 + (s.readV x).toNat * 5 ∧ ChangesOnly (· = .i) s t)

/-- LD B, VX: the decimal digits of V[X] at I, I + 1, I + 2, each address mod 4096; every other byte reads as before and I
is unchanged (46_index_memory.md R182; the wrap is the spec's decision D3, log 13). The digits stored give V[X] back. -/
def Obligations.BcdStoresTheDigits : Prop :=
  ∀ (x : Nibble) (s : State), Memory.wf (resetByte s.config) s.mem = true →
    Encodes (0xF033 + 256 * x.toNat) (.ldBVx x) ∧
    ∃ t, exec (.ldBVx x) s = .next t ∧
      (t.memRead s.i.toNat).toNat = (s.readV x).toNat / 100 ∧
      (t.memRead (s.i.toNat + 1)).toNat = (s.readV x).toNat / 10 % 10 ∧
      (t.memRead (s.i.toNat + 2)).toNat = (s.readV x).toNat % 10 ∧
      ChangesOnly (Part.inBlock s.i.toNat 3) s t

/-- LD [I], VX: V0..VX at I, I + 1, .., each address mod 4096, then I <- (I + X + 1) mod 4096; every byte outside the block
reads as before, and no register changes (46_index_memory.md R183; the wraps are D3, D4, log 13). -/
def Obligations.BlockStoreWritesV0ToVx : Prop :=
  ∀ (x : Nibble) (s : State), Memory.wf (resetByte s.config) s.mem = true →
    Encodes (0xF055 + 256 * x.toNat) (.ldMemVx x) ∧
    ∃ t, exec (.ldMemVx x) s = .next t ∧
      (∀ j : Nibble, j.toNat ≤ x.toNat → t.memRead (s.i.toNat + j.toNat) = s.readV j) ∧
      t.i.toNat = (s.i.toNat + x.toNat + 1) % 4096 ∧
      ChangesOnly (fun p => p = .i ∨ p.inBlock s.i.toNat (x.toNat + 1)) s t

/-- LD VX, [I]: V0..VX from I, I + 1, .., each address mod 4096, then I <- (I + X + 1) mod 4096; the registers above VX and
all of memory are unchanged (46_index_memory.md R184; the wraps are D3, D4, log 13). -/
def Obligations.BlockLoadReadsV0ToVx : Prop :=
  ∀ (x : Nibble) (s : State),
    Encodes (0xF065 + 256 * x.toNat) (.ldVxMem x) ∧
    ∃ t, exec (.ldVxMem x) s = .next t ∧
      (∀ j : Nibble, j.toNat ≤ x.toNat → t.readV j = s.memRead (s.i.toNat + j.toNat)) ∧
      t.i.toNat = (s.i.toNat + x.toNat + 1) % 4096 ∧
      ChangesOnly (fun p => p = .i ∨ p.upToV x) s t

/-- "FX55/FX65 round-trip" (95_test_vectors.md SV7): storing V0..VX and loading them back, from the same I and into any other
registers and stack, display, timers, keys and pc, gives the original values. -/
def Obligations.BlockStoreThenLoadGivesTheRegistersBack : Prop :=
  ∀ (x : Nibble) (s t u : State), Memory.wf (resetByte s.config) s.mem = true → exec (.ldMemVx x) s = .next t →
    u.i = s.i → (∀ a, u.memRead a = t.memRead a) →
    ∃ r, exec (.ldVxMem x) u = .next r ∧ (∀ j : Nibble, j.toNat ≤ x.toNat → r.readV j = s.readV j) ∧ r.i = t.i

/-! ### Display (43_display.md) -/

/-- CLS: every cell off and nothing else, VF included (43_display.md R151). -/
def Obligations.ClsTurnsEveryCellOff : Prop :=
  ∀ s : State,
    Encodes 0x00E0 .cls ∧
    ∃ t, exec .cls s = .next t ∧ (∀ (cx : Fin 64) (cy : Fin 32), t.disp.cell cx.val cy.val = false) ∧
      ChangesOnly (fun p => ∃ cx cy, p = .cell cx cy) s t

/-- DRW: a cell flips when a set pixel of the sprite falls on it, after the wrap of both axes, and no other cell changes; VF
is 1 when some cell that was on is covered, else 0; nothing else changes (43_display.md R152, R154). The bit order and the
sprite of no rows are the spec's decisions D19, D20, the read past 0xFFF is D3 (log 13, log 16). -/
def Obligations.DrawXorsTheSprite : Prop :=
  ∀ (x y n : Nibble) (s : State),
    Encodes (0xD000 + 256 * x.toNat + 16 * y.toNat + n.toNat) (.drw x y n) ∧
    ∃ t, exec (.drw x y n) s = .next t ∧
      (∀ (cx : Fin 64) (cy : Fin 32),
        (s.SpriteCovers x y n cx cy → t.disp.cell cx.val cy.val = !s.disp.cell cx.val cy.val) ∧
        (¬ s.SpriteCovers x y n cx cy → t.disp.cell cx.val cy.val = s.disp.cell cx.val cy.val)) ∧
      ((∃ cx cy, s.SpriteCovers x y n cx cy ∧ s.disp.cell cx.val cy.val = true) → t.readV vf = 1) ∧
      ((∀ cx cy, s.SpriteCovers x y n cx cy → s.disp.cell cx.val cy.val = false) → t.readV vf = 0) ∧
      ChangesOnly (fun p => p = .v vf ∨ ∃ cx cy, p = .cell cx cy) s t

/-- Drawing the same sprite twice at the same place restores the display, and the second draw gives VF = 1 when the first one
turned some cell on (43_display.md R152, 95_test_vectors.md SV4), else 0. R152's corner case promises VF = 1 for any sprite
with a set bit; by its pseudocode and R154 that is so only if a covered cell was off at first (log 21). Where a coordinate
register is VF, the first draw overwrites it, so the two are at the same place only for X and Y other than F. -/
def Obligations.DrawingTwiceRestoresTheDisplay : Prop :=
  ∀ (x y n : Nibble) (s t u : State), x ≠ vf → y ≠ vf → exec (.drw x y n) s = .next t → exec (.drw x y n) t = .next u →
    u.disp = s.disp ∧
    ((∃ cx cy, s.SpriteCovers x y n cx cy ∧ s.disp.cell cx.val cy.val = false) → u.readV vf = 1) ∧
    ((∀ cx cy, s.SpriteCovers x y n cx cy → s.disp.cell cx.val cy.val = true) → u.readV vf = 0)

/-! ### Keypad (44_keypad.md) -/

/-- SKP and SKNP with V[X] in 0..15: pc <- (pc + 2) mod 4096 once more when key V[X] is, or is not, pressed, else nothing
changes (44_keypad.md R161, R162; the wrap is D2, log 13; that V[X] is not masked is D8, log 18). -/
def Obligations.KeySkipsTestTheKey : Prop :=
  ∀ (x : Nibble) (s : State) (h : (s.readV x).toNat < 16) (i : Instr) (down : Bool),
    (i = .skp x ∧ down = true) ∨ (i = .sknp x ∧ down = false) →
    ∃ t, exec i s = .next t ∧
      (s.keyDown ⟨(s.readV x).toNat, h⟩ = down → t.pc.toNat = (s.pc.toNat + 2) % 4096) ∧
      (s.keyDown ⟨(s.readV x).toNat, h⟩ ≠ down → t = s) ∧ ChangesOnly (· = .pc) s t

/-- LD VX, K with a key pressed: V[X] gets the least pressed key and pc stays past the instruction; nothing else changes
(44_keypad.md R163; that it is the least is the spec's decision D13, log 15). -/
def Obligations.KeyWaitTakesTheLeastKey : Prop :=
  ∀ (x : Nibble) (s : State) (k : Fin 16), s.keyDown k = true → (∀ j < k, s.keyDown j = false) →
    Encodes (0xF00A + 256 * x.toNat) (.ldVxK x) ∧
    ∃ t, exec (.ldVxK x) s = .next t ∧ (t.readV x).toNat = k.val ∧ ChangesOnly (· = .v x) s t

/-- LD VX, K with no key pressed: the STEP leaves the core exactly as it was, pc at the same instruction, so the wait is
carried by pc alone (44_keypad.md R163, 70_reset_and_hazards.md R240; D14, log 15), and any number of STEPs and TICKs leave
it there. -/
def Obligations.KeyWaitRepeatsUntilAKey : Prop :=
  ∀ (x : Nibble) (s : State), s.halted = false → s.pc.toNat < 4096 → decode s.fetchWord = .ok (.ldVxK x) →
    (∀ k, s.keyDown k = false) →
    step s = .next s ∧
    ∀ (cs : List Command) (t : State), (∀ c ∈ cs, c = .step ∨ c = .tick) → runCommands cs s = .next t →
      ChangesOnly (· ∈ [.dt, .st]) s t

/-! ### Timers (45_timers.md, 60_exceptions.md) -/

/-- LD VX, DT: V[X] <- DT and nothing else, DT included (45_timers.md R170). -/
def Obligations.ReadDelayTimer : Prop :=
  ∀ (x : Nibble) (s : State),
    Encodes (0xF007 + 256 * x.toNat) (.ldVxDt x) ∧
    ∃ t, exec (.ldVxDt x) s = .next t ∧ t.readV x = s.dt ∧ ChangesOnly (· = .v x) s t

/-- LD DT, VX: DT <- V[X] and nothing else (45_timers.md R171). -/
def Obligations.SetDelayTimer : Prop :=
  ∀ (x : Nibble) (s : State),
    Encodes (0xF015 + 256 * x.toNat) (.ldDtVx x) ∧
    ∃ t, exec (.ldDtVx x) s = .next t ∧ t.dt = s.readV x ∧ ChangesOnly (· = .dt) s t

/-- LD ST, VX: ST <- V[X] and nothing else (45_timers.md R172); at once the audio port reads V[X] != 0 (60_exceptions.md
R210), and with V[X] = 1 it is off again at the next TICK. -/
def Obligations.SetSoundTimer : Prop :=
  ∀ (x : Nibble) (s : State),
    Encodes (0xF018 + 256 * x.toNat) (.ldStVx x) ∧
    ∃ t, exec (.ldStVx x) s = .next t ∧ t.st = s.readV x ∧ (t.audioPort = true ↔ s.readV x ≠ 0) ∧
      (s.readV x = 1 → t.tick.audioPort = false) ∧ ChangesOnly (· = .st) s t

/-- After FX15 writes DT, an FX07 with k TICKs and nothing else in between reads max(v - k, 0), into whatever register
(70_reset_and_hazards.md R242, which the spec derives). -/
def Obligations.DelayTimerReadsBackAfterTicks : Prop :=
  ∀ (x y : Nibble) (k : Nat) (s t : State), exec (.ldDtVx x) s = .next t →
    ∃ u, runCommands (List.replicate k .tick) t = .next u ∧
      ∃ r, exec (.ldVxDt y) u = .next r ∧ (r.readV y).toNat = (s.readV x).toNat - k

/-! ### Host commands (60_exceptions.md, 70_reset_and_hazards.md) -/

/-- TICK counts DT and ST down by one, stopping at zero, and changes nothing else, halted or not (60_exceptions.md R208; that
it runs while halted is the spec's decision D10, log 18). -/
def Obligations.TickCountsBothTimersDown : Prop :=
  ∀ s : State, ∃ t, runCommand .tick s = .next t ∧ t.dt.toNat = s.dt.toNat - 1 ∧ t.st.toNat = s.st.toNat - 1 ∧
    ChangesOnly (· ∈ [.dt, .st]) s t

/-- KEY(k, b): key[k] <- b, and nothing else (60_exceptions.md R212). -/
def Obligations.KeyCommandSetsOneKey : Prop :=
  ∀ (k : Fin 16) (b : Bool) (s : State), ∃ t, runCommand (.key k b) s = .next t ∧ t.keyDown k = b ∧
    ChangesOnly (· = .key k) s t

/-- LOAD refuses an image longer than 3584 bytes with no change of any state, and takes every other one; one of exactly 3584
bytes fills 0x200..0xFFF (70_reset_and_hazards.md R234). -/
def Obligations.LoadRefusesAnOversizeImage : Prop :=
  ∀ (s : State) (bytes : List Byte),
    (bytes.length > 3584 → s.load bytes = (s, .fail)) ∧
    (bytes.length ≤ 3584 → (s.load bytes).2 = .ok) ∧
    (bytes.length = 3584 → Memory.wf (resetByte s.config) s.mem = true →
      ∀ k : Nat, ∀ h : k < bytes.length, (s.load bytes).1.memRead (0x200 + k) = bytes[k])

/-- LOAD of at most 3584 bytes puts byte k at 0x200 + k and changes nothing else (70_reset_and_hazards.md R233; that it may
come at any time, of any length from zero on, is the spec's decision D22, log 20). -/
def Obligations.LoadStoresFrom0x200 : Prop :=
  ∀ (s : State) (bytes : List Byte), Memory.wf (resetByte s.config) s.mem = true → bytes.length ≤ 3584 →
    (s.load bytes).2 = .ok ∧
    (∀ k : Nat, ∀ h : k < bytes.length, (s.load bytes).1.memRead (0x200 + k) = bytes[k]) ∧
    ChangesOnly (Part.inBlock 0x200 bytes.length) s (s.load bytes).1

/-! ### Whole-machine rules -/

/-- VF is written only by the instructions of the table of 10_state.md R23: every other one, and every one whose row does not
apply (X is not F, or the mode is CHIP48), leaves it alone. The mode's rows are D11 (log 5). -/
def Obligations.OnlyTheVfWritersChangeVf : Prop :=
  ∀ (i : Instr) (s t : State), exec i s = .next t → i.writesVf s.config.compatMode = false → t.readV vf = s.readV vf

/-- Only eleven instructions write pc again during execute (10_state.md R25): after every other one pc is the advanced pc. -/
def Obligations.OnlyElevenInstructionsWritePc : Prop :=
  ∀ (i : Instr) (s t : State), exec i s = .next t → i.writesPc = false → t.pc = s.pc

/-- Memory is written by FX33 and FX55 alone, the display by 00E0 and DXYN alone, the stack and sp by 2NNN and 00EE alone, I
by ANNN, FX1E, FX29, FX55 and FX65 alone, and the random source moves by CXNN alone (20_memory.md R54, R57, R63;
10_state.md R27, R28, R31; 42_index_jump_random.md R143): a STEP that changes one of them ran one of those. -/
def Obligations.EachPartHasItsWriters : Prop :=
  ∀ s t : State, step s = .next t →
    ((∃ a, t.memRead a ≠ s.memRead a) → ∃ x, decode s.fetchWord = .ok (.ldBVx x) ∨ decode s.fetchWord = .ok (.ldMemVx x)) ∧
    (t.disp ≠ s.disp → decode s.fetchWord = .ok .cls ∨ ∃ x y n, decode s.fetchWord = .ok (.drw x y n)) ∧
    (t.stack ≠ s.stack → ∃ nnn, decode s.fetchWord = .ok (.call nnn)) ∧
    (t.sp ≠ s.sp → decode s.fetchWord = .ok .ret ∨ ∃ nnn, decode s.fetchWord = .ok (.call nnn)) ∧
    (t.i ≠ s.i → (∃ nnn, decode s.fetchWord = .ok (.ldI nnn)) ∨ ∃ x, decode s.fetchWord = .ok (.addIVx x) ∨
      decode s.fetchWord = .ok (.ldFVx x) ∨ decode s.fetchWord = .ok (.ldMemVx x) ∨ decode s.fetchWord = .ok (.ldVxMem x)) ∧
    (t.rng ≠ s.rng → ∃ x nn, decode s.fetchWord = .ok (.rnd x nn))

/-- A timer is never changed by a STEP except by the explicit store-timer opcodes, DT by FX15 and ST by FX18 (10_state.md R29,
R30); and no STEP changes a key or the configuration (R32, R36). -/
def Obligations.StepsLeaveTimersKeysAndConfigAlone : Prop :=
  ∀ s t : State, step s = .next t →
    (t.dt ≠ s.dt → ∃ x, decode s.fetchWord = .ok (.ldDtVx x)) ∧
    (t.st ≠ s.st → ∃ x, decode s.fetchWord = .ok (.ldStVx x)) ∧
    t.key = s.key ∧ t.config = s.config

/-- No instruction reads ST (10_state.md R30): two states that differ in ST alone step to states that differ in ST alone. For
RND the two take the same draw, which is the model's choice (log 23). -/
def Obligations.NoInstructionReadsTheSoundTimer : Prop :=
  ∀ (s t : State) (b : Byte), step s = .next t →
    ∃ t', step (s.writeSt b) = .next t' ∧ ChangesOnly (· = .st) t t'
end

