-- ==== Sys2Proof/Laws/Encoding.lean ====
section
/-! SUPPORT. The fields and formats of 30_encoding.md as numbers, and how they undo one another. -/

namespace Sys2Proof

/-! ### Fields as numbers -/

theorem fieldOp_toNat (w : Word) : (fieldOp w).toNat = w.toNat / 4096 := by
  have := w.isLt
  simp [fieldOp, Nat.shiftRight_eq_div_pow]; omega

theorem fieldX_toNat (w : Word) : (fieldX w).toNat = w.toNat / 256 % 16 := by
  simp [fieldX, Nat.shiftRight_eq_div_pow]

theorem fieldY_toNat (w : Word) : (fieldY w).toNat = w.toNat / 16 % 16 := by
  simp [fieldY, Nat.shiftRight_eq_div_pow]

theorem fieldN_toNat (w : Word) : (fieldN w).toNat = w.toNat % 16 := by
  simp [fieldN]

theorem fieldNN_toNat (w : Word) : (fieldNN w).toNat = w.toNat % 256 := by
  simp [fieldNN]

theorem fieldNNN_toNat (w : Word) : (fieldNNN w).toNat = w.toNat % 4096 := by
  simp [fieldNNN]

theorem highByte_toNat (w : Word) : (highByte w).toNat = w.toNat / 256 := by
  have := w.isLt
  simp [highByte, Nat.shiftRight_eq_div_pow]; omega

theorem lowByte_toNat (w : Word) : (lowByte w).toNat = w.toNat % 256 := by
  simp [lowByte]

/-! ### Formats as numbers -/

theorem append_toNat {m n : Nat} (a : BitVec m) (b : BitVec n) : (a ++ b).toNat = a.toNat * 2 ^ n + b.toNat := by
  rw [BitVec.toNat_append, ← Nat.shiftLeft_add_eq_or_of_lt b.isLt, Nat.shiftLeft_eq]

theorem formatANNN_toNat (op : Nibble) (nnn : Addr) : (formatANNN op nnn).toNat = op.toNat * 4096 + nnn.toNat :=
  append_toNat _ _

theorem formatXNN_toNat (op x : Nibble) (nn : Byte) :
    (formatXNN op x nn).toNat = op.toNat * 4096 + x.toNat * 256 + nn.toNat := by
  rw [formatXNN, append_toNat, append_toNat]; omega

theorem formatXYN_toNat (op x y n : Nibble) :
    (formatXYN op x y n).toNat = op.toNat * 4096 + x.toNat * 256 + y.toNat * 16 + n.toNat := by
  rw [formatXYN, append_toNat, append_toNat, append_toNat]; omega

theorem wordOfBytes_toNat (hi lo : Byte) : (wordOfBytes hi lo).toNat = hi.toNat * 256 + lo.toNat :=
  append_toNat _ _

/-! ### A format's fields -/

@[simp] theorem fieldOp_formatANNN (op : Nibble) (nnn : Addr) : fieldOp (formatANNN op nnn) = op :=
  BitVec.eq_of_toNat_eq (by rw [fieldOp_toNat, formatANNN_toNat]; omega)

@[simp] theorem fieldNNN_formatANNN (op : Nibble) (nnn : Addr) : fieldNNN (formatANNN op nnn) = nnn :=
  BitVec.eq_of_toNat_eq (by rw [fieldNNN_toNat, formatANNN_toNat]; omega)

@[simp] theorem fieldOp_formatXNN (op x : Nibble) (nn : Byte) : fieldOp (formatXNN op x nn) = op :=
  BitVec.eq_of_toNat_eq (by rw [fieldOp_toNat, formatXNN_toNat]; omega)

@[simp] theorem fieldX_formatXNN (op x : Nibble) (nn : Byte) : fieldX (formatXNN op x nn) = x :=
  BitVec.eq_of_toNat_eq (by rw [fieldX_toNat, formatXNN_toNat]; omega)

@[simp] theorem fieldNN_formatXNN (op x : Nibble) (nn : Byte) : fieldNN (formatXNN op x nn) = nn :=
  BitVec.eq_of_toNat_eq (by rw [fieldNN_toNat, formatXNN_toNat]; omega)

@[simp] theorem fieldOp_formatXYN (op x y n : Nibble) : fieldOp (formatXYN op x y n) = op :=
  BitVec.eq_of_toNat_eq (by rw [fieldOp_toNat, formatXYN_toNat]; omega)

@[simp] theorem fieldX_formatXYN (op x y n : Nibble) : fieldX (formatXYN op x y n) = x :=
  BitVec.eq_of_toNat_eq (by rw [fieldX_toNat, formatXYN_toNat]; omega)

@[simp] theorem fieldY_formatXYN (op x y n : Nibble) : fieldY (formatXYN op x y n) = y :=
  BitVec.eq_of_toNat_eq (by rw [fieldY_toNat, formatXYN_toNat]; omega)

@[simp] theorem fieldN_formatXYN (op x y n : Nibble) : fieldN (formatXYN op x y n) = n :=
  BitVec.eq_of_toNat_eq (by rw [fieldN_toNat, formatXYN_toNat]; omega)

/-! ### A word from its fields -/

theorem formatANNN_fields (w : Word) : formatANNN (fieldOp w) (fieldNNN w) = w :=
  BitVec.eq_of_toNat_eq (by rw [formatANNN_toNat, fieldOp_toNat, fieldNNN_toNat]; omega)

theorem formatXNN_fields (w : Word) : formatXNN (fieldOp w) (fieldX w) (fieldNN w) = w :=
  BitVec.eq_of_toNat_eq (by rw [formatXNN_toNat, fieldOp_toNat, fieldX_toNat, fieldNN_toNat]; omega)

theorem formatXYN_fields (w : Word) : formatXYN (fieldOp w) (fieldX w) (fieldY w) (fieldN w) = w :=
  BitVec.eq_of_toNat_eq (by rw [formatXYN_toNat, fieldOp_toNat, fieldX_toNat, fieldY_toNat, fieldN_toNat]; omega)

@[simp] theorem wordOfBytes_high_low (w : Word) : wordOfBytes (highByte w) (lowByte w) = w :=
  BitVec.eq_of_toNat_eq (by rw [wordOfBytes_toNat, highByte_toNat, lowByte_toNat]; omega)

@[simp] theorem highByte_wordOfBytes (hi lo : Byte) : highByte (wordOfBytes hi lo) = hi :=
  BitVec.eq_of_toNat_eq (by rw [highByte_toNat, wordOfBytes_toNat]; omega)

@[simp] theorem lowByte_wordOfBytes (hi lo : Byte) : lowByte (wordOfBytes hi lo) = lo :=
  BitVec.eq_of_toNat_eq (by rw [lowByte_toNat, wordOfBytes_toNat]; omega)

/-- The word numbered by a format's fields is the format's word. -/
theorem ofNat_eq_of_toNat {w : Word} {n : Nat} (h : w.toNat = n) : BitVec.ofNat 16 n = w := by
  rw [← h]; simp

/-! ### The masks of the opcode map (30_encoding.md R76) -/

theorem and_mask_F000 (w : Word) : w &&& 0xF000#16 = formatANNN (fieldOp w) 0 := by
  refine BitVec.eq_of_getLsbD_eq fun k hk => ?_
  simp only [formatANNN, fieldOp, BitVec.getLsbD_and, BitVec.getLsbD_append, BitVec.getLsbD_extractLsb']
  interval_cases k <;> simp

theorem and_mask_F00F (w : Word) : w &&& 0xF00F#16 = formatXYN (fieldOp w) 0 0 (fieldN w) := by
  refine BitVec.eq_of_getLsbD_eq fun k hk => ?_
  simp only [formatXYN, fieldOp, fieldN, BitVec.getLsbD_and, BitVec.getLsbD_append, BitVec.getLsbD_extractLsb']
  interval_cases k <;> simp

theorem and_mask_F0FF (w : Word) : w &&& 0xF0FF#16 = formatXNN (fieldOp w) 0 (fieldNN w) := by
  refine BitVec.eq_of_getLsbD_eq fun k hk => ?_
  simp only [formatXNN, fieldOp, fieldNN, BitVec.getLsbD_and, BitVec.getLsbD_append, BitVec.getLsbD_extractLsb']
  interval_cases k <;> simp

theorem and_mask_FFFF (w : Word) : w &&& 0xFFFF#16 = w := by
  ext k hk
  interval_cases k <;> simp

/-! ### What the decoder does, group by group -/

/-- Every instruction of group 8 comes from its function nibble. -/
theorem decode8_ok {f x y : Nibble} {i : Instr} (h : decode8 f x y = .ok i) :
    (f = 0x0 ∧ i = .ldReg x y) ∨ (f = 0x1 ∧ i = .orReg x y) ∨ (f = 0x2 ∧ i = .andReg x y) ∨ (f = 0x3 ∧ i = .xorReg x y) ∨
    (f = 0x4 ∧ i = .addReg x y) ∨ (f = 0x5 ∧ i = .sub x y) ∨ (f = 0x6 ∧ i = .shr x y) ∨ (f = 0x7 ∧ i = .subn x y) ∨
    (f = 0xE ∧ i = .shl x y) := by
  unfold decode8 at h
  split at h <;> cases h <;> simp

/-- Every instruction of group E comes from its function byte. -/
theorem decodeE_ok {ff : Byte} {x : Nibble} {i : Instr} (h : decodeE ff x = .ok i) :
    (ff = 0x9E ∧ i = .skp x) ∨ (ff = 0xA1 ∧ i = .sknp x) := by
  unfold decodeE at h
  split at h <;> cases h <;> simp

/-- Every instruction of group F comes from its function byte. -/
theorem decodeF_ok {ff : Byte} {x : Nibble} {i : Instr} (h : decodeF ff x = .ok i) :
    (ff = 0x07 ∧ i = .ldVxDt x) ∨ (ff = 0x0A ∧ i = .ldVxK x) ∨ (ff = 0x15 ∧ i = .ldDtVx x) ∨ (ff = 0x18 ∧ i = .ldStVx x) ∨
    (ff = 0x1E ∧ i = .addIVx x) ∨ (ff = 0x29 ∧ i = .ldFVx x) ∨ (ff = 0x33 ∧ i = .ldBVx x) ∨ (ff = 0x55 ∧ i = .ldMemVx x) ∨
    (ff = 0x65 ∧ i = .ldVxMem x) := by
  unfold decodeF at h
  split at h <;> cases h <;> simp

end Sys2Proof
end

