-- ==== Sys2Proof/Laws/State.lean ====
section
/-! SUPPORT. One lemma per field per state update, so that no later proof unfolds a record update. -/

namespace Sys2Proof.Machine

/-! ### writeV -/

@[simp] theorem State.writeV_v (s : State) (x : Nibble) (b : Byte) : (s.writeV x b).v = s.v.set x.toNat b x.isLt := rfl
@[simp] theorem State.writeV_pc (s : State) (x : Nibble) (b : Byte) : (s.writeV x b).pc = s.pc := rfl
@[simp] theorem State.writeV_i (s : State) (x : Nibble) (b : Byte) : (s.writeV x b).i = s.i := rfl
@[simp] theorem State.writeV_stack (s : State) (x : Nibble) (b : Byte) : (s.writeV x b).stack = s.stack := rfl
@[simp] theorem State.writeV_sp (s : State) (x : Nibble) (b : Byte) : (s.writeV x b).sp = s.sp := rfl
@[simp] theorem State.writeV_dt (s : State) (x : Nibble) (b : Byte) : (s.writeV x b).dt = s.dt := rfl
@[simp] theorem State.writeV_st (s : State) (x : Nibble) (b : Byte) : (s.writeV x b).st = s.st := rfl
@[simp] theorem State.writeV_mem (s : State) (x : Nibble) (b : Byte) : (s.writeV x b).mem = s.mem := rfl
@[simp] theorem State.writeV_disp (s : State) (x : Nibble) (b : Byte) : (s.writeV x b).disp = s.disp := rfl
@[simp] theorem State.writeV_key (s : State) (x : Nibble) (b : Byte) : (s.writeV x b).key = s.key := rfl
@[simp] theorem State.writeV_rng (s : State) (x : Nibble) (b : Byte) : (s.writeV x b).rng = s.rng := rfl
@[simp] theorem State.writeV_halted (s : State) (x : Nibble) (b : Byte) : (s.writeV x b).halted = s.halted := rfl
@[simp] theorem State.writeV_faultCause (s : State) (x : Nibble) (b : Byte) : (s.writeV x b).faultCause = s.faultCause := rfl
@[simp] theorem State.writeV_faultPc (s : State) (x : Nibble) (b : Byte) : (s.writeV x b).faultPc = s.faultPc := rfl
@[simp] theorem State.writeV_config (s : State) (x : Nibble) (b : Byte) : (s.writeV x b).config = s.config := rfl

/-! ### writeI -/

@[simp] theorem State.writeI_v (s : State) (a : Word) : (s.writeI a).v = s.v := rfl
@[simp] theorem State.writeI_pc (s : State) (a : Word) : (s.writeI a).pc = s.pc := rfl
@[simp] theorem State.writeI_i (s : State) (a : Word) : (s.writeI a).i = a := rfl
@[simp] theorem State.writeI_stack (s : State) (a : Word) : (s.writeI a).stack = s.stack := rfl
@[simp] theorem State.writeI_sp (s : State) (a : Word) : (s.writeI a).sp = s.sp := rfl
@[simp] theorem State.writeI_dt (s : State) (a : Word) : (s.writeI a).dt = s.dt := rfl
@[simp] theorem State.writeI_st (s : State) (a : Word) : (s.writeI a).st = s.st := rfl
@[simp] theorem State.writeI_mem (s : State) (a : Word) : (s.writeI a).mem = s.mem := rfl
@[simp] theorem State.writeI_disp (s : State) (a : Word) : (s.writeI a).disp = s.disp := rfl
@[simp] theorem State.writeI_key (s : State) (a : Word) : (s.writeI a).key = s.key := rfl
@[simp] theorem State.writeI_rng (s : State) (a : Word) : (s.writeI a).rng = s.rng := rfl
@[simp] theorem State.writeI_halted (s : State) (a : Word) : (s.writeI a).halted = s.halted := rfl
@[simp] theorem State.writeI_faultCause (s : State) (a : Word) : (s.writeI a).faultCause = s.faultCause := rfl
@[simp] theorem State.writeI_faultPc (s : State) (a : Word) : (s.writeI a).faultPc = s.faultPc := rfl
@[simp] theorem State.writeI_config (s : State) (a : Word) : (s.writeI a).config = s.config := rfl

/-! ### writeDt -/

@[simp] theorem State.writeDt_v (s : State) (b : Byte) : (s.writeDt b).v = s.v := rfl
@[simp] theorem State.writeDt_pc (s : State) (b : Byte) : (s.writeDt b).pc = s.pc := rfl
@[simp] theorem State.writeDt_i (s : State) (b : Byte) : (s.writeDt b).i = s.i := rfl
@[simp] theorem State.writeDt_stack (s : State) (b : Byte) : (s.writeDt b).stack = s.stack := rfl
@[simp] theorem State.writeDt_sp (s : State) (b : Byte) : (s.writeDt b).sp = s.sp := rfl
@[simp] theorem State.writeDt_dt (s : State) (b : Byte) : (s.writeDt b).dt = b := rfl
@[simp] theorem State.writeDt_st (s : State) (b : Byte) : (s.writeDt b).st = s.st := rfl
@[simp] theorem State.writeDt_mem (s : State) (b : Byte) : (s.writeDt b).mem = s.mem := rfl
@[simp] theorem State.writeDt_disp (s : State) (b : Byte) : (s.writeDt b).disp = s.disp := rfl
@[simp] theorem State.writeDt_key (s : State) (b : Byte) : (s.writeDt b).key = s.key := rfl
@[simp] theorem State.writeDt_rng (s : State) (b : Byte) : (s.writeDt b).rng = s.rng := rfl
@[simp] theorem State.writeDt_halted (s : State) (b : Byte) : (s.writeDt b).halted = s.halted := rfl
@[simp] theorem State.writeDt_faultCause (s : State) (b : Byte) : (s.writeDt b).faultCause = s.faultCause := rfl
@[simp] theorem State.writeDt_faultPc (s : State) (b : Byte) : (s.writeDt b).faultPc = s.faultPc := rfl
@[simp] theorem State.writeDt_config (s : State) (b : Byte) : (s.writeDt b).config = s.config := rfl

/-! ### writeSt -/

@[simp] theorem State.writeSt_v (s : State) (b : Byte) : (s.writeSt b).v = s.v := rfl
@[simp] theorem State.writeSt_pc (s : State) (b : Byte) : (s.writeSt b).pc = s.pc := rfl
@[simp] theorem State.writeSt_i (s : State) (b : Byte) : (s.writeSt b).i = s.i := rfl
@[simp] theorem State.writeSt_stack (s : State) (b : Byte) : (s.writeSt b).stack = s.stack := rfl
@[simp] theorem State.writeSt_sp (s : State) (b : Byte) : (s.writeSt b).sp = s.sp := rfl
@[simp] theorem State.writeSt_dt (s : State) (b : Byte) : (s.writeSt b).dt = s.dt := rfl
@[simp] theorem State.writeSt_st (s : State) (b : Byte) : (s.writeSt b).st = b := rfl
@[simp] theorem State.writeSt_mem (s : State) (b : Byte) : (s.writeSt b).mem = s.mem := rfl
@[simp] theorem State.writeSt_disp (s : State) (b : Byte) : (s.writeSt b).disp = s.disp := rfl
@[simp] theorem State.writeSt_key (s : State) (b : Byte) : (s.writeSt b).key = s.key := rfl
@[simp] theorem State.writeSt_rng (s : State) (b : Byte) : (s.writeSt b).rng = s.rng := rfl
@[simp] theorem State.writeSt_halted (s : State) (b : Byte) : (s.writeSt b).halted = s.halted := rfl
@[simp] theorem State.writeSt_faultCause (s : State) (b : Byte) : (s.writeSt b).faultCause = s.faultCause := rfl
@[simp] theorem State.writeSt_faultPc (s : State) (b : Byte) : (s.writeSt b).faultPc = s.faultPc := rfl
@[simp] theorem State.writeSt_config (s : State) (b : Byte) : (s.writeSt b).config = s.config := rfl

/-! ### setPc -/

@[simp] theorem State.setPc_v (s : State) (a : Word) : (s.setPc a).v = s.v := rfl
@[simp] theorem State.setPc_pc (s : State) (a : Word) : (s.setPc a).pc = a := rfl
@[simp] theorem State.setPc_i (s : State) (a : Word) : (s.setPc a).i = s.i := rfl
@[simp] theorem State.setPc_stack (s : State) (a : Word) : (s.setPc a).stack = s.stack := rfl
@[simp] theorem State.setPc_sp (s : State) (a : Word) : (s.setPc a).sp = s.sp := rfl
@[simp] theorem State.setPc_dt (s : State) (a : Word) : (s.setPc a).dt = s.dt := rfl
@[simp] theorem State.setPc_st (s : State) (a : Word) : (s.setPc a).st = s.st := rfl
@[simp] theorem State.setPc_mem (s : State) (a : Word) : (s.setPc a).mem = s.mem := rfl
@[simp] theorem State.setPc_disp (s : State) (a : Word) : (s.setPc a).disp = s.disp := rfl
@[simp] theorem State.setPc_key (s : State) (a : Word) : (s.setPc a).key = s.key := rfl
@[simp] theorem State.setPc_rng (s : State) (a : Word) : (s.setPc a).rng = s.rng := rfl
@[simp] theorem State.setPc_halted (s : State) (a : Word) : (s.setPc a).halted = s.halted := rfl
@[simp] theorem State.setPc_faultCause (s : State) (a : Word) : (s.setPc a).faultCause = s.faultCause := rfl
@[simp] theorem State.setPc_faultPc (s : State) (a : Word) : (s.setPc a).faultPc = s.faultPc := rfl
@[simp] theorem State.setPc_config (s : State) (a : Word) : (s.setPc a).config = s.config := rfl

/-! ### advancePc -/

@[simp] theorem State.advancePc_v (s : State) : s.advancePc.v = s.v := rfl
@[simp] theorem State.advancePc_pc (s : State) : s.advancePc.pc = addr (s.pc.toNat + 2) := rfl
@[simp] theorem State.advancePc_i (s : State) : s.advancePc.i = s.i := rfl
@[simp] theorem State.advancePc_stack (s : State) : s.advancePc.stack = s.stack := rfl
@[simp] theorem State.advancePc_sp (s : State) : s.advancePc.sp = s.sp := rfl
@[simp] theorem State.advancePc_dt (s : State) : s.advancePc.dt = s.dt := rfl
@[simp] theorem State.advancePc_st (s : State) : s.advancePc.st = s.st := rfl
@[simp] theorem State.advancePc_mem (s : State) : s.advancePc.mem = s.mem := rfl
@[simp] theorem State.advancePc_disp (s : State) : s.advancePc.disp = s.disp := rfl
@[simp] theorem State.advancePc_key (s : State) : s.advancePc.key = s.key := rfl
@[simp] theorem State.advancePc_rng (s : State) : s.advancePc.rng = s.rng := rfl
@[simp] theorem State.advancePc_halted (s : State) : s.advancePc.halted = s.halted := rfl
@[simp] theorem State.advancePc_faultCause (s : State) : s.advancePc.faultCause = s.faultCause := rfl
@[simp] theorem State.advancePc_faultPc (s : State) : s.advancePc.faultPc = s.faultPc := rfl
@[simp] theorem State.advancePc_config (s : State) : s.advancePc.config = s.config := rfl

/-! ### skip -/

@[simp] theorem State.skip_v (s : State) : s.skip.v = s.v := rfl
@[simp] theorem State.skip_pc (s : State) : s.skip.pc = addr (s.pc.toNat + 2) := rfl
@[simp] theorem State.skip_i (s : State) : s.skip.i = s.i := rfl
@[simp] theorem State.skip_stack (s : State) : s.skip.stack = s.stack := rfl
@[simp] theorem State.skip_sp (s : State) : s.skip.sp = s.sp := rfl
@[simp] theorem State.skip_dt (s : State) : s.skip.dt = s.dt := rfl
@[simp] theorem State.skip_st (s : State) : s.skip.st = s.st := rfl
@[simp] theorem State.skip_mem (s : State) : s.skip.mem = s.mem := rfl
@[simp] theorem State.skip_disp (s : State) : s.skip.disp = s.disp := rfl
@[simp] theorem State.skip_key (s : State) : s.skip.key = s.key := rfl
@[simp] theorem State.skip_rng (s : State) : s.skip.rng = s.rng := rfl
@[simp] theorem State.skip_halted (s : State) : s.skip.halted = s.halted := rfl
@[simp] theorem State.skip_faultCause (s : State) : s.skip.faultCause = s.faultCause := rfl
@[simp] theorem State.skip_faultPc (s : State) : s.skip.faultPc = s.faultPc := rfl
@[simp] theorem State.skip_config (s : State) : s.skip.config = s.config := rfl

/-! ### setDisp -/

@[simp] theorem State.setDisp_v (s : State) (d : Display) : (s.setDisp d).v = s.v := rfl
@[simp] theorem State.setDisp_pc (s : State) (d : Display) : (s.setDisp d).pc = s.pc := rfl
@[simp] theorem State.setDisp_i (s : State) (d : Display) : (s.setDisp d).i = s.i := rfl
@[simp] theorem State.setDisp_stack (s : State) (d : Display) : (s.setDisp d).stack = s.stack := rfl
@[simp] theorem State.setDisp_sp (s : State) (d : Display) : (s.setDisp d).sp = s.sp := rfl
@[simp] theorem State.setDisp_dt (s : State) (d : Display) : (s.setDisp d).dt = s.dt := rfl
@[simp] theorem State.setDisp_st (s : State) (d : Display) : (s.setDisp d).st = s.st := rfl
@[simp] theorem State.setDisp_mem (s : State) (d : Display) : (s.setDisp d).mem = s.mem := rfl
@[simp] theorem State.setDisp_disp (s : State) (d : Display) : (s.setDisp d).disp = d := rfl
@[simp] theorem State.setDisp_key (s : State) (d : Display) : (s.setDisp d).key = s.key := rfl
@[simp] theorem State.setDisp_rng (s : State) (d : Display) : (s.setDisp d).rng = s.rng := rfl
@[simp] theorem State.setDisp_halted (s : State) (d : Display) : (s.setDisp d).halted = s.halted := rfl
@[simp] theorem State.setDisp_faultCause (s : State) (d : Display) : (s.setDisp d).faultCause = s.faultCause := rfl
@[simp] theorem State.setDisp_faultPc (s : State) (d : Display) : (s.setDisp d).faultPc = s.faultPc := rfl
@[simp] theorem State.setDisp_config (s : State) (d : Display) : (s.setDisp d).config = s.config := rfl

/-! ### memWrite -/

@[simp] theorem State.memWrite_v (s : State) (a : Nat) (b : Byte) : (s.memWrite a b).v = s.v := rfl
@[simp] theorem State.memWrite_pc (s : State) (a : Nat) (b : Byte) : (s.memWrite a b).pc = s.pc := rfl
@[simp] theorem State.memWrite_i (s : State) (a : Nat) (b : Byte) : (s.memWrite a b).i = s.i := rfl
@[simp] theorem State.memWrite_stack (s : State) (a : Nat) (b : Byte) : (s.memWrite a b).stack = s.stack := rfl
@[simp] theorem State.memWrite_sp (s : State) (a : Nat) (b : Byte) : (s.memWrite a b).sp = s.sp := rfl
@[simp] theorem State.memWrite_dt (s : State) (a : Nat) (b : Byte) : (s.memWrite a b).dt = s.dt := rfl
@[simp] theorem State.memWrite_st (s : State) (a : Nat) (b : Byte) : (s.memWrite a b).st = s.st := rfl
@[simp] theorem State.memWrite_mem (s : State) (a : Nat) (b : Byte) : (s.memWrite a b).mem = Memory.write (resetByte s.config) s.mem (a % 4096) b := rfl
@[simp] theorem State.memWrite_disp (s : State) (a : Nat) (b : Byte) : (s.memWrite a b).disp = s.disp := rfl
@[simp] theorem State.memWrite_key (s : State) (a : Nat) (b : Byte) : (s.memWrite a b).key = s.key := rfl
@[simp] theorem State.memWrite_rng (s : State) (a : Nat) (b : Byte) : (s.memWrite a b).rng = s.rng := rfl
@[simp] theorem State.memWrite_halted (s : State) (a : Nat) (b : Byte) : (s.memWrite a b).halted = s.halted := rfl
@[simp] theorem State.memWrite_faultCause (s : State) (a : Nat) (b : Byte) : (s.memWrite a b).faultCause = s.faultCause := rfl
@[simp] theorem State.memWrite_faultPc (s : State) (a : Nat) (b : Byte) : (s.memWrite a b).faultPc = s.faultPc := rfl
@[simp] theorem State.memWrite_config (s : State) (a : Nat) (b : Byte) : (s.memWrite a b).config = s.config := rfl

/-! ### takeFault -/

@[simp] theorem State.takeFault_v (s : State) (c : Fault) : (s.takeFault c).v = s.v := rfl
@[simp] theorem State.takeFault_pc (s : State) (c : Fault) : (s.takeFault c).pc = s.instrAddr := rfl
@[simp] theorem State.takeFault_i (s : State) (c : Fault) : (s.takeFault c).i = s.i := rfl
@[simp] theorem State.takeFault_stack (s : State) (c : Fault) : (s.takeFault c).stack = s.stack := rfl
@[simp] theorem State.takeFault_sp (s : State) (c : Fault) : (s.takeFault c).sp = s.sp := rfl
@[simp] theorem State.takeFault_dt (s : State) (c : Fault) : (s.takeFault c).dt = s.dt := rfl
@[simp] theorem State.takeFault_st (s : State) (c : Fault) : (s.takeFault c).st = s.st := rfl
@[simp] theorem State.takeFault_mem (s : State) (c : Fault) : (s.takeFault c).mem = s.mem := rfl
@[simp] theorem State.takeFault_disp (s : State) (c : Fault) : (s.takeFault c).disp = s.disp := rfl
@[simp] theorem State.takeFault_key (s : State) (c : Fault) : (s.takeFault c).key = s.key := rfl
@[simp] theorem State.takeFault_rng (s : State) (c : Fault) : (s.takeFault c).rng = s.rng := rfl
@[simp] theorem State.takeFault_halted (s : State) (c : Fault) : (s.takeFault c).halted = true := rfl
@[simp] theorem State.takeFault_faultCause (s : State) (c : Fault) : (s.takeFault c).faultCause = c.code := rfl
@[simp] theorem State.takeFault_faultPc (s : State) (c : Fault) : (s.takeFault c).faultPc = s.instrAddr := rfl
@[simp] theorem State.takeFault_config (s : State) (c : Fault) : (s.takeFault c).config = s.config := rfl

/-! ### tick -/

@[simp] theorem State.tick_v (s : State) : s.tick.v = s.v := rfl
@[simp] theorem State.tick_pc (s : State) : s.tick.pc = s.pc := rfl
@[simp] theorem State.tick_i (s : State) : s.tick.i = s.i := rfl
@[simp] theorem State.tick_stack (s : State) : s.tick.stack = s.stack := rfl
@[simp] theorem State.tick_sp (s : State) : s.tick.sp = s.sp := rfl
@[simp] theorem State.tick_dt (s : State) : s.tick.dt = countDown s.dt := rfl
@[simp] theorem State.tick_st (s : State) : s.tick.st = countDown s.st := rfl
@[simp] theorem State.tick_mem (s : State) : s.tick.mem = s.mem := rfl
@[simp] theorem State.tick_disp (s : State) : s.tick.disp = s.disp := rfl
@[simp] theorem State.tick_key (s : State) : s.tick.key = s.key := rfl
@[simp] theorem State.tick_rng (s : State) : s.tick.rng = s.rng := rfl
@[simp] theorem State.tick_halted (s : State) : s.tick.halted = s.halted := rfl
@[simp] theorem State.tick_faultCause (s : State) : s.tick.faultCause = s.faultCause := rfl
@[simp] theorem State.tick_faultPc (s : State) : s.tick.faultPc = s.faultPc := rfl
@[simp] theorem State.tick_config (s : State) : s.tick.config = s.config := rfl

/-! ### setKey -/

@[simp] theorem State.setKey_v (s : State) (k : Fin 16) (b : Bool) : (s.setKey k b).v = s.v := rfl
@[simp] theorem State.setKey_pc (s : State) (k : Fin 16) (b : Bool) : (s.setKey k b).pc = s.pc := rfl
@[simp] theorem State.setKey_i (s : State) (k : Fin 16) (b : Bool) : (s.setKey k b).i = s.i := rfl
@[simp] theorem State.setKey_stack (s : State) (k : Fin 16) (b : Bool) : (s.setKey k b).stack = s.stack := rfl
@[simp] theorem State.setKey_sp (s : State) (k : Fin 16) (b : Bool) : (s.setKey k b).sp = s.sp := rfl
@[simp] theorem State.setKey_dt (s : State) (k : Fin 16) (b : Bool) : (s.setKey k b).dt = s.dt := rfl
@[simp] theorem State.setKey_st (s : State) (k : Fin 16) (b : Bool) : (s.setKey k b).st = s.st := rfl
@[simp] theorem State.setKey_mem (s : State) (k : Fin 16) (b : Bool) : (s.setKey k b).mem = s.mem := rfl
@[simp] theorem State.setKey_disp (s : State) (k : Fin 16) (b : Bool) : (s.setKey k b).disp = s.disp := rfl
@[simp] theorem State.setKey_key (s : State) (k : Fin 16) (b : Bool) : (s.setKey k b).key = s.key.set k.val b := rfl
@[simp] theorem State.setKey_rng (s : State) (k : Fin 16) (b : Bool) : (s.setKey k b).rng = s.rng := rfl
@[simp] theorem State.setKey_halted (s : State) (k : Fin 16) (b : Bool) : (s.setKey k b).halted = s.halted := rfl
@[simp] theorem State.setKey_faultCause (s : State) (k : Fin 16) (b : Bool) : (s.setKey k b).faultCause = s.faultCause := rfl
@[simp] theorem State.setKey_faultPc (s : State) (k : Fin 16) (b : Bool) : (s.setKey k b).faultPc = s.faultPc := rfl
@[simp] theorem State.setKey_config (s : State) (k : Fin 16) (b : Bool) : (s.setKey k b).config = s.config := rfl

/-! ### withMode -/

@[simp] theorem State.withMode_v (s : State) (m : CompatMode) : (s.withMode m).v = s.v := rfl
@[simp] theorem State.withMode_pc (s : State) (m : CompatMode) : (s.withMode m).pc = s.pc := rfl
@[simp] theorem State.withMode_i (s : State) (m : CompatMode) : (s.withMode m).i = s.i := rfl
@[simp] theorem State.withMode_stack (s : State) (m : CompatMode) : (s.withMode m).stack = s.stack := rfl
@[simp] theorem State.withMode_sp (s : State) (m : CompatMode) : (s.withMode m).sp = s.sp := rfl
@[simp] theorem State.withMode_dt (s : State) (m : CompatMode) : (s.withMode m).dt = s.dt := rfl
@[simp] theorem State.withMode_st (s : State) (m : CompatMode) : (s.withMode m).st = s.st := rfl
@[simp] theorem State.withMode_mem (s : State) (m : CompatMode) : (s.withMode m).mem = s.mem := rfl
@[simp] theorem State.withMode_disp (s : State) (m : CompatMode) : (s.withMode m).disp = s.disp := rfl
@[simp] theorem State.withMode_key (s : State) (m : CompatMode) : (s.withMode m).key = s.key := rfl
@[simp] theorem State.withMode_rng (s : State) (m : CompatMode) : (s.withMode m).rng = s.rng := rfl
@[simp] theorem State.withMode_halted (s : State) (m : CompatMode) : (s.withMode m).halted = s.halted := rfl
@[simp] theorem State.withMode_faultCause (s : State) (m : CompatMode) : (s.withMode m).faultCause = s.faultCause := rfl
@[simp] theorem State.withMode_faultPc (s : State) (m : CompatMode) : (s.withMode m).faultPc = s.faultPc := rfl
@[simp] theorem State.withMode_config (s : State) (m : CompatMode) : (s.withMode m).config = { s.config with compatMode := m } := rfl

/-! ### drawRandomByte -/

@[simp] theorem State.drawRandomByte_byte (s : State) : s.drawRandomByte.1 = Config.randomByte s.rng := rfl
@[simp] theorem State.drawRandomByte_v (s : State) : s.drawRandomByte.2.v = s.v := rfl
@[simp] theorem State.drawRandomByte_pc (s : State) : s.drawRandomByte.2.pc = s.pc := rfl
@[simp] theorem State.drawRandomByte_i (s : State) : s.drawRandomByte.2.i = s.i := rfl
@[simp] theorem State.drawRandomByte_stack (s : State) : s.drawRandomByte.2.stack = s.stack := rfl
@[simp] theorem State.drawRandomByte_sp (s : State) : s.drawRandomByte.2.sp = s.sp := rfl
@[simp] theorem State.drawRandomByte_dt (s : State) : s.drawRandomByte.2.dt = s.dt := rfl
@[simp] theorem State.drawRandomByte_st (s : State) : s.drawRandomByte.2.st = s.st := rfl
@[simp] theorem State.drawRandomByte_mem (s : State) : s.drawRandomByte.2.mem = s.mem := rfl
@[simp] theorem State.drawRandomByte_disp (s : State) : s.drawRandomByte.2.disp = s.disp := rfl
@[simp] theorem State.drawRandomByte_key (s : State) : s.drawRandomByte.2.key = s.key := rfl
@[simp] theorem State.drawRandomByte_rng (s : State) : s.drawRandomByte.2.rng = s.rng + 1 := rfl
@[simp] theorem State.drawRandomByte_halted (s : State) : s.drawRandomByte.2.halted = s.halted := rfl
@[simp] theorem State.drawRandomByte_faultCause (s : State) : s.drawRandomByte.2.faultCause = s.faultCause := rfl
@[simp] theorem State.drawRandomByte_faultPc (s : State) : s.drawRandomByte.2.faultPc = s.faultPc := rfl
@[simp] theorem State.drawRandomByte_config (s : State) : s.drawRandomByte.2.config = s.config := rfl

/-! ### resetWith -/

@[simp] theorem State.resetWith_v (c : Config) (n : Nat) : (State.resetWith c n).v = Vector.replicate 16 0 := rfl
@[simp] theorem State.resetWith_pc (c : Config) (n : Nat) : (State.resetWith c n).pc = 0x200 := rfl
@[simp] theorem State.resetWith_i (c : Config) (n : Nat) : (State.resetWith c n).i = 0 := rfl
@[simp] theorem State.resetWith_stack (c : Config) (n : Nat) : (State.resetWith c n).stack = Vector.replicate 16 0 := rfl
@[simp] theorem State.resetWith_sp (c : Config) (n : Nat) : (State.resetWith c n).sp = 0 := rfl
@[simp] theorem State.resetWith_dt (c : Config) (n : Nat) : (State.resetWith c n).dt = 0 := rfl
@[simp] theorem State.resetWith_st (c : Config) (n : Nat) : (State.resetWith c n).st = 0 := rfl
@[simp] theorem State.resetWith_mem (c : Config) (n : Nat) : (State.resetWith c n).mem = [] := rfl
@[simp] theorem State.resetWith_disp (c : Config) (n : Nat) : (State.resetWith c n).disp = Vector.replicate 64 (Vector.replicate 32 false) := rfl
@[simp] theorem State.resetWith_key (c : Config) (n : Nat) : (State.resetWith c n).key = Vector.replicate 16 false := rfl
@[simp] theorem State.resetWith_rng (c : Config) (n : Nat) : (State.resetWith c n).rng = n := rfl
@[simp] theorem State.resetWith_halted (c : Config) (n : Nat) : (State.resetWith c n).halted = false := rfl
@[simp] theorem State.resetWith_faultCause (c : Config) (n : Nat) : (State.resetWith c n).faultCause = 0 := rfl
@[simp] theorem State.resetWith_faultPc (c : Config) (n : Nat) : (State.resetWith c n).faultPc = 0 := rfl
@[simp] theorem State.resetWith_config (c : Config) (n : Nat) : (State.resetWith c n).config = c := rfl

end Sys2Proof.Machine
end

