-- ==== Sys2Proof/Laws/Memory.lean ====
section
/-! SUPPORT. Memory: read after write, and the canonical form every memory operation keeps. -/

namespace Sys2Proof.Machine

variable {u : Nat → Byte}

/-! ### The canonical form -/

theorem Memory.wfFrom_cons {lo a : Nat} {v : Byte} {m : Memory} :
    Memory.wfFrom u lo ((a, v) :: m) = true ↔ lo ≤ a ∧ a < 4096 ∧ v ≠ u a ∧ Memory.wfFrom u (a + 1) m = true := by
  simp [Memory.wfFrom, and_assoc]

theorem Memory.wfFrom_mono {lo lo' : Nat} {m : Memory} (h : Memory.wfFrom u lo m = true) (hlo : lo' ≤ lo) :
    Memory.wfFrom u lo' m = true := by
  cases m with
  | nil => rfl
  | cons c m =>
    obtain ⟨h1, h2⟩ := Memory.wfFrom_cons.1 h
    exact Memory.wfFrom_cons.2 ⟨by omega, h2⟩

/-- Below the least address a canonical list can hold, it reads as unlisted. -/
theorem Memory.read_of_lt {lo a : Nat} {m : Memory} (h : Memory.wfFrom u lo m = true) (ha : a < lo) :
    Memory.read u m a = u a := by
  induction m generalizing lo with
  | nil => rfl
  | cons c m ih =>
    obtain ⟨h1, _, _, h4⟩ := Memory.wfFrom_cons.1 h
    rw [Memory.read, if_neg (by omega), ih h4 (by omega)]

theorem Memory.wfFrom_write {lo a : Nat} {v : Byte} {m : Memory} (h : Memory.wfFrom u lo m = true) (hlo : lo ≤ a)
    (ha : a < 4096) : Memory.wfFrom u lo (Memory.write u m a v) = true := by
  induction m generalizing lo with
  | nil =>
    rw [Memory.write]
    split
    · rfl
    · exact Memory.wfFrom_cons.2 ⟨hlo, ha, ‹_›, rfl⟩
  | cons c m ih =>
    obtain ⟨b, w⟩ := c
    obtain ⟨h1, h2, h3, h4⟩ := Memory.wfFrom_cons.1 h
    rw [Memory.write]
    split_ifs with hab hv heq hv
    · exact h
    · exact Memory.wfFrom_cons.2 ⟨hlo, ha, hv, Memory.wfFrom_cons.2 ⟨by omega, h2, h3, h4⟩⟩
    · exact Memory.wfFrom_mono h4 (by omega)
    · exact Memory.wfFrom_cons.2 ⟨hlo, ha, hv, by rw [heq]; exact h4⟩
    · exact Memory.wfFrom_cons.2 ⟨h1, h2, h3, ih h4 (by omega)⟩

/-- A store keeps the canonical form. -/
theorem Memory.wf_write {a : Nat} {v : Byte} {m : Memory} (h : Memory.wf u m = true) (ha : a < 4096) :
    Memory.wf u (Memory.write u m a v) = true :=
  Memory.wfFrom_write h (Nat.zero_le _) ha

theorem Memory.wf_nil : Memory.wf u [] = true := rfl

/-! ### Read after write -/

theorem Memory.read_write_from {lo a b : Nat} {v : Byte} {m : Memory} (h : Memory.wfFrom u lo m = true) :
    Memory.read u (Memory.write u m a v) b = if b = a then v else Memory.read u m b := by
  induction m generalizing lo with
  | nil =>
    simp only [Memory.write]
    split_ifs with hv hba <;> simp_all [Memory.read]
  | cons c m ih =>
    obtain ⟨d, w⟩ := c
    obtain ⟨_, _, _, h4⟩ := Memory.wfFrom_cons.1 h
    have hd : ∀ e, e ≤ d → Memory.read u m e = u e := fun e he => Memory.read_of_lt h4 (by omega)
    simp only [Memory.write]
    by_cases hba : b = a
    · subst hba
      rw [if_pos rfl]
      split_ifs with hbd hv hbd' hv
      · rw [Memory.read, if_neg (by omega), hd _ (by omega), hv]
      · rw [Memory.read, if_pos rfl]
      · rw [hd _ (by omega), hv]
      · rw [Memory.read, if_pos rfl]
      · rw [Memory.read, if_neg hbd', ih h4, if_pos rfl]
    · rw [if_neg hba]
      split_ifs with had hv had' hv
      · rfl
      · rw [Memory.read, if_neg hba]
      · rw [Memory.read, if_neg (by omega)]
      · rw [Memory.read, Memory.read, if_neg hba, if_neg (by omega)]
      · rw [Memory.read, Memory.read, ih h4, if_neg hba]

/-- A read after a store gives the value stored at the same address, and what it gave before at every other. -/
theorem Memory.read_write {a b : Nat} {v : Byte} {m : Memory} (h : Memory.wf u m = true) :
    Memory.read u (Memory.write u m a v) b = if b = a then v else Memory.read u m b :=
  Memory.read_write_from h

/-- Equal memories are equal lists: the canonical form is decided by what it reads as. -/
theorem Memory.ext_of_read_from {lo : Nat} {m m' : Memory} (h : Memory.wfFrom u lo m = true)
    (h' : Memory.wfFrom u lo m' = true) (hr : ∀ a, lo ≤ a → Memory.read u m a = Memory.read u m' a) : m = m' := by
  induction m generalizing lo m' with
  | nil =>
    cases m' with
    | nil => rfl
    | cons c m' =>
      obtain ⟨h1, _, h3, _⟩ := Memory.wfFrom_cons.1 h'
      exact absurd (by simpa [Memory.read] using (hr c.1 h1).symm) h3
  | cons c m ih =>
    obtain ⟨a, v⟩ := c
    obtain ⟨h1, h2, h3, h4⟩ := Memory.wfFrom_cons.1 h
    cases m' with
    | nil => exact absurd (by simpa [Memory.read] using hr a h1) h3
    | cons c' m' =>
      obtain ⟨b, w⟩ := c'
      obtain ⟨k1, k2, k3, k4⟩ := Memory.wfFrom_cons.1 h'
      have hab : a = b := by
        rcases Nat.lt_trichotomy a b with hlt | heq | hlt
        · have := hr a h1
          simp only [Memory.read, if_pos, if_neg (Nat.ne_of_lt hlt)] at this
          exact absurd (this.trans (Memory.read_of_lt k4 (by omega))) h3
        · exact heq
        · have := hr b k1
          simp only [Memory.read, if_pos, if_neg (Nat.ne_of_lt hlt)] at this
          exact absurd (this.symm.trans (Memory.read_of_lt h4 (by omega))) k3
      subst hab
      have hvw : v = w := by simpa [Memory.read] using hr a h1
      subst hvw
      congr 1
      refine ih h4 k4 fun e he => ?_
      have := hr e (by omega)
      simpa only [Memory.read, if_neg (show e ≠ a by omega)] using this

/-! ### The state's memory operations -/

@[simp] theorem State.memRead_mod (s : State) (a : Nat) : s.memRead (a % 4096) = s.memRead a := by
  simp [State.memRead]

theorem State.memRead_congr {s t : State} (hc : t.config = s.config) (hm : t.mem = s.mem) (a : Nat) :
    t.memRead a = s.memRead a := by
  simp [State.memRead, hc, hm]

theorem State.memRead_memWrite {s : State} (h : Memory.wf (resetByte s.config) s.mem = true) (a b : Nat) (v : Byte) :
    (s.memWrite a v).memRead b = if b % 4096 = a % 4096 then v else s.memRead b :=
  Memory.read_write h

theorem State.memWrite_wf {s : State} (h : Memory.wf (resetByte s.config) s.mem = true) (a : Nat) (v : Byte) :
    Memory.wf (resetByte (s.memWrite a v).config) (s.memWrite a v).mem = true :=
  Memory.wf_write h (Nat.mod_lt _ (by decide))

/-- Reset's memory has the canonical form. -/
theorem State.resetWith_wf (c : Config) (n : Nat) :
    Memory.wf (resetByte (State.resetWith c n).config) (State.resetWith c n).mem = true := rfl

/-- After reset the font stands at 0x050..0x09F and every other byte is zero (10_state.md R38). -/
theorem State.resetWith_memRead (c : Config) (n a : Nat) :
    (State.resetWith c n).memRead a = resetByte c (a % 4096) := rfl

end Sys2Proof.Machine
end

