-- ==== Sys2Proof/Laws/Reads.lean ====
section
/-! SUPPORT. What each state update leaves of the reads: registers, bytes of memory and keys. -/

namespace Sys2Proof.Machine

@[simp] theorem State.writeV_memRead (s : State) (x : Nibble) (b : Byte) (e : Nat) : (s.writeV x b).memRead e = s.memRead e := rfl
@[simp] theorem State.writeV_keyDown (s : State) (x : Nibble) (b : Byte) (j : Fin 16) : (s.writeV x b).keyDown j = s.keyDown j := rfl
@[simp] theorem State.writeI_readV (s : State) (a : Word) (y : Nibble) : (s.writeI a).readV y = s.readV y := rfl
@[simp] theorem State.writeI_memRead (s : State) (a : Word) (e : Nat) : (s.writeI a).memRead e = s.memRead e := rfl
@[simp] theorem State.writeI_keyDown (s : State) (a : Word) (j : Fin 16) : (s.writeI a).keyDown j = s.keyDown j := rfl
@[simp] theorem State.writeDt_readV (s : State) (b : Byte) (y : Nibble) : (s.writeDt b).readV y = s.readV y := rfl
@[simp] theorem State.writeDt_memRead (s : State) (b : Byte) (e : Nat) : (s.writeDt b).memRead e = s.memRead e := rfl
@[simp] theorem State.writeDt_keyDown (s : State) (b : Byte) (j : Fin 16) : (s.writeDt b).keyDown j = s.keyDown j := rfl
@[simp] theorem State.writeSt_readV (s : State) (b : Byte) (y : Nibble) : (s.writeSt b).readV y = s.readV y := rfl
@[simp] theorem State.writeSt_memRead (s : State) (b : Byte) (e : Nat) : (s.writeSt b).memRead e = s.memRead e := rfl
@[simp] theorem State.writeSt_keyDown (s : State) (b : Byte) (j : Fin 16) : (s.writeSt b).keyDown j = s.keyDown j := rfl
@[simp] theorem State.setPc_readV (s : State) (a : Word) (y : Nibble) : (s.setPc a).readV y = s.readV y := rfl
@[simp] theorem State.setPc_memRead (s : State) (a : Word) (e : Nat) : (s.setPc a).memRead e = s.memRead e := rfl
@[simp] theorem State.setPc_keyDown (s : State) (a : Word) (j : Fin 16) : (s.setPc a).keyDown j = s.keyDown j := rfl
@[simp] theorem State.advancePc_readV (s : State) (y : Nibble) : s.advancePc.readV y = s.readV y := rfl
@[simp] theorem State.advancePc_memRead (s : State) (e : Nat) : s.advancePc.memRead e = s.memRead e := rfl
@[simp] theorem State.advancePc_keyDown (s : State) (j : Fin 16) : s.advancePc.keyDown j = s.keyDown j := rfl
@[simp] theorem State.skip_readV (s : State) (y : Nibble) : s.skip.readV y = s.readV y := rfl
@[simp] theorem State.skip_memRead (s : State) (e : Nat) : s.skip.memRead e = s.memRead e := rfl
@[simp] theorem State.skip_keyDown (s : State) (j : Fin 16) : s.skip.keyDown j = s.keyDown j := rfl
@[simp] theorem State.setDisp_readV (s : State) (d : Display) (y : Nibble) : (s.setDisp d).readV y = s.readV y := rfl
@[simp] theorem State.setDisp_memRead (s : State) (d : Display) (e : Nat) : (s.setDisp d).memRead e = s.memRead e := rfl
@[simp] theorem State.setDisp_keyDown (s : State) (d : Display) (j : Fin 16) : (s.setDisp d).keyDown j = s.keyDown j := rfl
@[simp] theorem State.memWrite_readV (s : State) (c : Nat) (b : Byte) (y : Nibble) : (s.memWrite c b).readV y = s.readV y := rfl
@[simp] theorem State.memWrite_keyDown (s : State) (c : Nat) (b : Byte) (j : Fin 16) : (s.memWrite c b).keyDown j = s.keyDown j := rfl
@[simp] theorem State.takeFault_readV (s : State) (c : Fault) (y : Nibble) : (s.takeFault c).readV y = s.readV y := rfl
@[simp] theorem State.takeFault_memRead (s : State) (c : Fault) (e : Nat) : (s.takeFault c).memRead e = s.memRead e := rfl
@[simp] theorem State.takeFault_keyDown (s : State) (c : Fault) (j : Fin 16) : (s.takeFault c).keyDown j = s.keyDown j := rfl
@[simp] theorem State.tick_readV (s : State) (y : Nibble) : s.tick.readV y = s.readV y := rfl
@[simp] theorem State.tick_memRead (s : State) (e : Nat) : s.tick.memRead e = s.memRead e := rfl
@[simp] theorem State.tick_keyDown (s : State) (j : Fin 16) : s.tick.keyDown j = s.keyDown j := rfl
@[simp] theorem State.setKey_readV (s : State) (k : Fin 16) (b : Bool) (y : Nibble) : (s.setKey k b).readV y = s.readV y := rfl
@[simp] theorem State.setKey_memRead (s : State) (k : Fin 16) (b : Bool) (e : Nat) : (s.setKey k b).memRead e = s.memRead e := rfl
@[simp] theorem State.withMode_readV (s : State) (m : CompatMode) (y : Nibble) : (s.withMode m).readV y = s.readV y := rfl
@[simp] theorem State.withMode_memRead (s : State) (m : CompatMode) (e : Nat) : (s.withMode m).memRead e = s.memRead e := rfl
@[simp] theorem State.withMode_keyDown (s : State) (m : CompatMode) (j : Fin 16) : (s.withMode m).keyDown j = s.keyDown j := rfl
@[simp] theorem State.drawRandomByte_readV (s : State) (y : Nibble) : s.drawRandomByte.2.readV y = s.readV y := rfl
@[simp] theorem State.drawRandomByte_memRead (s : State) (e : Nat) : s.drawRandomByte.2.memRead e = s.memRead e := rfl
@[simp] theorem State.drawRandomByte_keyDown (s : State) (j : Fin 16) : s.drawRandomByte.2.keyDown j = s.keyDown j := rfl

/-- KEY sets its own key and no other (60_exceptions.md R212). -/
theorem State.setKey_keyDown (s : State) (k j : Fin 16) (b : Bool) :
    (s.setKey k b).keyDown j = if j = k then b else s.keyDown j := by
  simp only [State.keyDown, State.setKey_key, Vector.getElem_set, Fin.ext_iff, eq_comm]

end Sys2Proof.Machine
end

