-- ==== Sys2Proof/Laws/Registers.lean ====
section
/-! SUPPORT. What the shared operations over registers, pc, the stack, the keypad and blocks of memory can do. -/

namespace Sys2Proof.Machine

/-! ### Addresses -/

@[simp] theorem addr_toNat (v : Nat) : (addr v).toNat = v % 4096 := by
  simp [addr]; omega

theorem addr_lt (v : Nat) : (addr v).toNat < 4096 := by
  rw [addr_toNat]; exact Nat.mod_lt _ (by decide)

@[simp] theorem addrOperand_toNat (nnn : Addr) : (addrOperand nnn).toNat = nnn.toNat := by
  have := nnn.isLt
  simp [addrOperand]; omega

/-! ### V -/

theorem State.readV_congr {s t : State} (h : t.v = s.v) (x : Nibble) : t.readV x = s.readV x := by
  simp [State.readV, h]

@[simp] theorem State.readV_writeV (s : State) (x y : Nibble) (b : Byte) :
    (s.writeV x b).readV y = if y = x then b else s.readV y := by
  simp only [State.readV, State.writeV_v, Vector.getElem_set, BitVec.toNat_inj]
  split_ifs with h h' h' <;> simp_all

/-- The result, then the flag: VF holds the flag, whichever register X is (41_alu.md R120). -/
theorem State.readV_writeResultFlag (s : State) (x y : Nibble) (r f : Byte) :
    (s.writeResultFlag x r f).readV y = if y = vf then f else if y = x then r else s.readV y := by
  simp [State.writeResultFlag]

/-! ### pc -/

/-- A skip moves pc on and touches nothing else, or nothing at all. -/
theorem State.skipIf_eq (s : State) (c : Bool) :
    s.skipIf c = s.setPc (if c then addr (s.pc.toNat + 2) else s.pc) := by
  cases c <;> rfl

theorem State.setPc_pc_self (s : State) : s.setPc s.pc = s := rfl

/-- The address recovered from the advanced pc is the instruction's own (10_state.md R25). -/
theorem State.instrAddr_advancePc {s : State} (h : s.pc.toNat < 4096) : s.advancePc.instrAddr = s.pc :=
  BitVec.eq_of_toNat_eq (by simp [State.instrAddr]; omega)

/-! ### The call stack -/

/-- Everything a push can do. -/
theorem State.push_eq (s : State) (a : Word) :
    (s.sp.val = 16 ∧ s.push a = none) ∨
    ∃ (h : s.sp.val < 16), s.push a = some { s with stack := s.stack.set s.sp.val a, sp := ⟨s.sp.val + 1, by omega⟩ } := by
  by_cases h : s.sp.val < 16
  · exact .inr ⟨h, by simp [State.push, h]⟩
  · exact .inl ⟨by omega, by simp [State.push, h]⟩

/-- Everything a pop can do. -/
theorem State.pop_eq (s : State) :
    (s.sp.val = 0 ∧ s.pop = none) ∨
    ∃ (h : 0 < s.sp.val), s.pop = some ({ s with sp := ⟨s.sp.val - 1, by omega⟩ }, s.stack[s.sp.val - 1]) := by
  by_cases h : 0 < s.sp.val
  · exact .inr ⟨h, by simp [State.pop, h]⟩
  · exact .inl ⟨by omega, by simp [State.pop, h]⟩

/-! ### The keypad -/

/-- Everything a key index can be: V[X] itself, or out of range (44_keypad.md R160). -/
theorem State.keyIndex_eq (s : State) (x : Nibble) :
    (15 < (s.readV x).toNat ∧ s.keyIndex x = none) ∨
    ∃ h : (s.readV x).toNat < 16, s.keyIndex x = some ⟨(s.readV x).toNat, h⟩ := by
  by_cases h : (s.readV x).toNat < 16
  · exact .inr ⟨h, by simp [State.keyIndex, h]⟩
  · exact .inl ⟨by omega, by simp [State.keyIndex, h]⟩

theorem State.leastKey_none {s : State} : s.leastKey = none ↔ ∀ k, s.keyDown k = false := by
  simp [State.leastKey, List.find?_eq_none]

/-- The least pressed key is pressed, and no key below it is (R163). -/
theorem State.leastKey_some {s : State} {k : Fin 16} :
    s.leastKey = some k ↔ s.keyDown k = true ∧ ∀ j < k, s.keyDown j = false := by
  constructor
  · intro h
    obtain ⟨hk, as, bs, hl, has⟩ := List.find?_eq_some_iff_append.1 h
    refine ⟨hk, fun j hj => ?_⟩
    have hmem : j ∈ as ∨ j = k ∨ j ∈ bs := by simpa [hl] using List.mem_finRange j
    have hsorted : (as ++ k :: bs).Pairwise (· < ·) := hl ▸ List.pairwise_lt_finRange 16
    rcases hmem with hm | rfl | hm
    · simpa using has j hm
    · exact absurd hj (lt_irrefl _)
    · have := (List.pairwise_cons.1 (List.pairwise_append.1 hsorted).2.1).1 j hm
      exact absurd hj (by omega)
  · rintro ⟨hk, hl⟩
    rcases hf : s.leastKey with _ | k'
    · exact absurd hk (by simp [State.leastKey_none.1 hf k])
    · have hk' : s.keyDown k' = true := List.find?_some hf
      congr 1
      rcases lt_trichotomy k' k with h | h | h
      · exact absurd hk' (by simp [hl k' h])
      · exact h
      · obtain ⟨_, as, bs, hle, has⟩ := List.find?_eq_some_iff_append.1 hf
        have hmem : k ∈ as ∨ k = k' ∨ k ∈ bs := by simpa [hle] using List.mem_finRange k
        have hsorted : (as ++ k' :: bs).Pairwise (· < ·) := hle ▸ List.pairwise_lt_finRange 16
        rcases hmem with hm | rfl | hm
        · exact absurd hk (by simpa using has k hm)
        · rfl
        · have := (List.pairwise_cons.1 (List.pairwise_append.1 hsorted).2.1).1 k hm
          omega

/-! ### Memory in blocks -/

/-- A list of stores only replaces memory. -/
theorem State.memWriteList_eq (s : State) (a : Nat) (bs : List Byte) :
    s.memWriteList a bs = { s with mem := (s.memWriteList a bs).mem } := by
  induction bs generalizing s a with
  | nil => rfl
  | cons b bs ih => rw [State.memWriteList, ih]; rfl

theorem State.memWriteList_wf {s : State} (h : Memory.wf (resetByte s.config) s.mem = true) (a : Nat) (bs : List Byte) :
    Memory.wf (resetByte s.config) (s.memWriteList a bs).mem = true := by
  induction bs generalizing s a with
  | nil => exact h
  | cons b bs ih => exact ih (s := s.memWrite a b) (State.memWrite_wf h a b) (a + 1)

/-- A byte below 4096 that is listed at offset `k` of a block of at most 4096 bytes reads as stored; every other as before. -/
theorem State.memRead_memWriteList {s : State} (h : Memory.wf (resetByte s.config) s.mem = true) (a : Nat) (bs : List Byte)
    (hlen : bs.length ≤ 4096) (b : Nat) :
    ((s.memWriteList a bs).memRead b = s.memRead b ∧ ∀ k < bs.length, (a + k) % 4096 ≠ b % 4096) ∨
    ∃ k, ∃ hk : k < bs.length, (a + k) % 4096 = b % 4096 ∧ (s.memWriteList a bs).memRead b = bs[k] := by
  induction bs generalizing s a with
  | nil => exact .inl ⟨rfl, by simp⟩
  | cons v bs ih =>
    simp only [List.length_cons] at hlen
    rcases ih (s := s.memWrite a v) (State.memWrite_wf h a v) (a + 1) (by omega) with ⟨h1, h2⟩ | ⟨k, hk, h1, h2⟩
    · rw [State.memWriteList, h1, State.memRead_memWrite h]
      split_ifs with hab
      · exact .inr ⟨0, by simp, by omega, rfl⟩
      · refine .inl ⟨rfl, fun k hk => ?_⟩
        cases k with
        | zero => omega
        | succ k =>
          have := h2 k (by simpa using hk)
          omega
    · exact .inr ⟨k + 1, by simpa using hk, by omega, by simpa [State.memWriteList] using h2⟩

/-- Storing registers only replaces memory. -/
theorem State.storeRegs_eq (s : State) (base n : Nat) :
    s.storeRegs base n = { s with mem := (s.storeRegs base n).mem } := by
  induction n with
  | zero => rfl
  | succ n ih => rw [State.storeRegs, ih]; rfl

theorem State.storeRegs_wf {s : State} (h : Memory.wf (resetByte s.config) s.mem = true) (base n : Nat) :
    Memory.wf (resetByte s.config) (s.storeRegs base n).mem = true := by
  induction n with
  | zero => exact h
  | succ n ih =>
    rw [State.storeRegs]
    have hc : (s.storeRegs base n).config = s.config := by rw [State.storeRegs_eq]
    simpa [hc] using State.memWrite_wf (s := s.storeRegs base n) (by rw [hc]; exact ih) (base + n) _

/-- After a block store, byte `base + k` holds V[k], and every byte outside the block what it held. -/
theorem State.memRead_storeRegs {s : State} (h : Memory.wf (resetByte s.config) s.mem = true) (base n : Nat) (hn : n ≤ 4096)
    (b : Nat) :
    ((s.storeRegs base n).memRead b = s.memRead b ∧ ∀ k < n, (base + k) % 4096 ≠ b % 4096) ∨
    ∃ k < n, (base + k) % 4096 = b % 4096 ∧ (s.storeRegs base n).memRead b = s.readV (BitVec.ofNat 4 k) := by
  induction n with
  | zero => exact .inl ⟨rfl, by simp⟩
  | succ n ih =>
    have hc : (s.storeRegs base n).config = s.config := by rw [State.storeRegs_eq]
    have hw : Memory.wf (resetByte (s.storeRegs base n).config) (s.storeRegs base n).mem = true := by
      rw [hc]; exact State.storeRegs_wf h base n
    rw [State.storeRegs, State.memRead_memWrite hw]
    split_ifs with hb
    · exact .inr ⟨n, by omega, hb.symm, rfl⟩
    · rcases ih (by omega) with ⟨h1, h2⟩ | ⟨k, hk, h1, h2⟩
      · refine .inl ⟨h1, fun k hk => ?_⟩
        rcases Nat.lt_succ_iff_lt_or_eq.1 hk with hk | rfl
        · exact h2 k hk
        · exact fun h => hb h.symm
      · exact .inr ⟨k, by omega, h1, h2⟩

/-- Loading registers only replaces V. -/
theorem State.loadRegs_eq (s : State) (base n : Nat) : s.loadRegs base n = { s with v := (s.loadRegs base n).v } := by
  induction n with
  | zero => rfl
  | succ n ih => rw [State.loadRegs, ih]; rfl

/-- After a block load of at most 16 registers, V[j] is byte `base + j` when it is in the block, and as before when not. -/
theorem State.readV_loadRegs (s : State) (base n : Nat) (hn : n ≤ 16) (j : Nibble) :
    (s.loadRegs base n).readV j = if j.toNat < n then s.memRead (base + j.toNat) else s.readV j := by
  induction n with
  | zero => simp [State.loadRegs]
  | succ n ih =>
    have hj : j = BitVec.ofNat 4 n ↔ j.toNat = n := by
      rw [← BitVec.toNat_inj, BitVec.toNat_ofNat, Nat.mod_eq_of_lt (by omega)]
    rw [State.loadRegs, State.readV_writeV, ih (by omega)]
    split_ifs with h1 h2 h2 h3 h3
    · rw [hj.1 h1]
    · exact absurd (hj.1 h1) (by omega)
    · rfl
    · omega
    · exact absurd (hj.2 (by omega)) h1
    · rfl

end Sys2Proof.Machine
end

