-- ==== Sys2Proof/Laws/Screen.lean ====
section
/-! SUPPORT. The display: cells, and what a drawn pixel, row and sprite do to one cell and to the collision. -/

namespace Sys2Proof.Machine

theorem Display.cell_setCell (d : Display) (x y x' y' : Nat) (b : Bool) :
    (d.setCell x y b).cell x' y' = if x' % 64 = x % 64 ∧ y' % 32 = y % 32 then b else d.cell x' y' := by
  simp only [Display.cell, Display.setCell, Vector.getElem_set]
  by_cases hx : x % 64 = x' % 64 <;> by_cases hy : y % 32 = y' % 32 <;> simp [hx, hy] <;>
    simp_all [eq_comm]

@[simp] theorem Display.cell_blank (x y : Nat) : Display.blank.cell x y = false := by
  simp [Display.cell, Display.blank]

/-- Two displays with the same cells are the same. -/
theorem Display.ext_of_cell {d e : Display} (h : ∀ (x : Fin 64) (y : Fin 32), d.cell x.val y.val = e.cell x.val y.val) :
    d = e := by
  ext x hx y hy
  have := h ⟨x, hx⟩ ⟨y, hy⟩
  simpa [Display.cell, Nat.mod_eq_of_lt hx, Nat.mod_eq_of_lt hy] using this

/-- One pixel flips its own cell when its bit is set and it lands there, and no other. -/
theorem Canvas.xorPixel_cell (k : Canvas) (x y x' y' : Nat) (bit : Bool) :
    (k.xorPixel x y bit).grid.cell x' y' =
      (k.grid.cell x' y' ^^ (bit && decide (x' % 64 = x % 64 ∧ y' % 32 = y % 32))) := by
  cases bit
  · simp [Canvas.xorPixel]
  · have hmod : k.grid.cell x y = k.grid.cell (x % 64) (y % 32) := by simp [Display.cell]
    have hmod' : k.grid.cell x' y' = k.grid.cell (x' % 64) (y' % 32) := by simp [Display.cell]
    by_cases h : x' % 64 = x % 64 ∧ y' % 32 = y % 32
    · simp [Canvas.xorPixel, Display.cell_setCell, h, hmod, hmod']
    · simp [Canvas.xorPixel, Display.cell_setCell, h]

/-- One pixel adds to the collision when its bit is set and its cell was on. -/
theorem Canvas.xorPixel_hit (k : Canvas) (x y : Nat) (bit : Bool) :
    (k.xorPixel x y bit).hit = (k.hit || (bit && k.grid.cell x y)) := by
  cases bit <;> simp [Canvas.xorPixel]

end Sys2Proof.Machine
end

