-- ==== Sys2Proof/Laws/Frames.lean ====
section
/-! SUPPORT. The frame of each shared operation, and how frames compose; what one step can do. -/

namespace Sys2Proof.Machine

variable {P Q : Part → Prop} {s t u : State}

/-! ### Frames compose -/

theorem Part.agrees_refl (s : State) (p : Part) : p.Agrees s s := by
  cases p <;> simp [Part.Agrees]

theorem Part.agrees_trans {p : Part} (h : p.Agrees s t) (h' : p.Agrees t u) : p.Agrees s u := by
  cases p <;> simp_all [Part.Agrees]

theorem ChangesOnly.refl (s : State) : ChangesOnly P s s := fun p _ => Part.agrees_refl s p

theorem ChangesOnly.trans (h : ChangesOnly P s t) (h' : ChangesOnly P t u) : ChangesOnly P s u :=
  fun p hp => Part.agrees_trans (h p hp) (h' p hp)

theorem ChangesOnly.mono (h : ChangesOnly P s t) (hPQ : ∀ p, P p → Q p) : ChangesOnly Q s t :=
  fun p hp => h p fun hP => hp (hPQ p hP)

/-! ### Registers, pc and the display -/

theorem writeV_changesOnly (s : State) (x : Nibble) (b : Byte) : ChangesOnly (· = .v x) s (s.writeV x b) := by
  intro p hp
  cases p with
  | v y => simp only [Part.Agrees, State.readV_writeV]; exact if_neg fun (h : y = x) => hp (h ▸ rfl)
  | _ => simp [Part.Agrees, State.memRead, State.keyDown]

theorem writeResultFlag_changesOnly (s : State) (x : Nibble) (r f : Byte) :
    ChangesOnly (· ∈ [.v x, .v vf]) s (s.writeResultFlag x r f) :=
  ((writeV_changesOnly s x r).mono (by simp +contextual)).trans
    ((writeV_changesOnly _ vf f).mono (by simp +contextual))

theorem setPc_changesOnly (s : State) (a : Word) : ChangesOnly (· = .pc) s (s.setPc a) := by
  intro p hp
  cases p <;> simp_all [Part.Agrees, State.readV, State.memRead, State.keyDown]

theorem writeI_changesOnly (s : State) (a : Word) : ChangesOnly (· = .i) s (s.writeI a) := by
  intro p hp
  cases p <;> simp_all [Part.Agrees, State.readV, State.memRead, State.keyDown]

theorem writeDt_changesOnly (s : State) (b : Byte) : ChangesOnly (· = .dt) s (s.writeDt b) := by
  intro p hp
  cases p <;> simp_all [Part.Agrees, State.readV, State.memRead, State.keyDown]

theorem writeSt_changesOnly (s : State) (b : Byte) : ChangesOnly (· = .st) s (s.writeSt b) := by
  intro p hp
  cases p <;> simp_all [Part.Agrees, State.readV, State.memRead, State.keyDown]

theorem setDisp_changesOnly (s : State) (d : Display) :
    ChangesOnly (fun p => ∃ x y, p = .cell x y) s (s.setDisp d) := by
  intro p hp
  cases p <;> simp_all [Part.Agrees, State.readV, State.memRead, State.keyDown]

theorem takeFault_changesOnly (s : State) (c : Fault) : ChangesOnly (· ∈ [.pc, .fault]) s (s.takeFault c) := by
  intro p hp
  cases p <;> simp_all [Part.Agrees, State.readV, State.memRead, State.keyDown]

theorem drawRandomByte_changesOnly (s : State) : ChangesOnly (· = .rng) s s.drawRandomByte.2 := by
  intro p hp
  cases p <;> simp_all [Part.Agrees, State.readV, State.memRead, State.keyDown]

/-! ### Memory and blocks -/

/-- A state that differs in memory only agrees on every part but the bytes it reads differently. -/
theorem mem_changesOnly (m : Memory) (hP : ∀ a : Fin 4096, ¬ P (.memByte a) →
    ({ s with mem := m } : State).memRead a.val = s.memRead a.val) : ChangesOnly P s { s with mem := m } := by
  intro p hp
  cases p with
  | memByte a => exact hP a hp
  | _ => simp [Part.Agrees, State.readV, State.keyDown]

theorem memWriteList_changesOnly (h : Memory.wf (resetByte s.config) s.mem = true) (a : Nat) (bs : List Byte)
    (hlen : bs.length ≤ 4096) : ChangesOnly (Part.inBlock a bs.length) s (s.memWriteList a bs) := by
  rw [State.memWriteList_eq]
  refine mem_changesOnly _ fun b hb => ?_
  rw [← State.memWriteList_eq]
  rcases State.memRead_memWriteList h a bs hlen b.val with h1 | ⟨k, hk, h1, _⟩
  · exact h1.1
  · exact absurd ⟨k, hk, b, rfl, by have := b.isLt; omega⟩ hb

theorem storeRegs_changesOnly (h : Memory.wf (resetByte s.config) s.mem = true) (base n : Nat) (hn : n ≤ 4096) :
    ChangesOnly (Part.inBlock base n) s (s.storeRegs base n) := by
  rw [State.storeRegs_eq]
  refine mem_changesOnly _ fun b hb => ?_
  rw [← State.storeRegs_eq]
  rcases State.memRead_storeRegs h base n hn b.val with h1 | ⟨k, hk, h1, _⟩
  · exact h1.1
  · exact absurd ⟨k, hk, b, rfl, by have := b.isLt; omega⟩ hb

/-! ### One step -/

/-- Everything a STEP can do. -/
theorem step_cases (h : step s = .next t) :
    (s.halted = true ∧ t = s) ∨
    (s.halted = false ∧ ∃ i, decode s.fetchWord = .ok i ∧ exec i s.advancePc = .next t) ∨
    (s.halted = false ∧ ∃ r, decode s.fetchWord = .error r ∧ t = s.advancePc) := by
  unfold step at h
  cases hh : s.halted
  · rw [hh, if_neg (by simp)] at h
    rcases hd : decode s.fetchWord with r | i
    · rw [hd] at h; cases h; exact .inr (.inr ⟨rfl, r, rfl, rfl⟩)
    · rw [hd] at h; exact .inr (.inl ⟨rfl, i, rfl, h⟩)
  · rw [hh, if_pos rfl] at h; cases h; exact .inl ⟨rfl, rfl⟩

end Sys2Proof.Machine
end

