-- ==== Sys2Proof/Laws/PerInstr.lean ====
section
/-! SUPPORT. Statements made of every instruction, one lemma per constructor. -/

namespace Sys2Proof

/-- The word of a well-formed instruction selects that instruction's own row of the opcode map (30_encoding.md R76). -/
def Laws.RowMatch.Statement (i : Instr) : Prop := i.WellFormed = true → i.row.selects (encode i) = true

theorem Laws.rowMatch_F000 {i : Instr} (hm : i.row.mask = 0xF000#16)
    (h : formatANNN (fieldOp (encode i)) 0 = i.row.matchBits) : Laws.RowMatch.Statement i := by
  intro _; exact beq_iff_eq.2 (by rw [hm, and_mask_F000, h])

theorem Laws.rowMatch_F00F {i : Instr} (hm : i.row.mask = 0xF00F#16)
    (h : formatXYN (fieldOp (encode i)) 0 0 (fieldN (encode i)) = i.row.matchBits) : Laws.RowMatch.Statement i := by
  intro _; exact beq_iff_eq.2 (by rw [hm, and_mask_F00F, h])

theorem Laws.rowMatch_F0FF {i : Instr} (hm : i.row.mask = 0xF0FF#16)
    (h : formatXNN (fieldOp (encode i)) 0 (fieldNN (encode i)) = i.row.matchBits) : Laws.RowMatch.Statement i := by
  intro _; exact beq_iff_eq.2 (by rw [hm, and_mask_F0FF, h])

theorem Laws.RowMatch.sys (nnn : Addr) : Laws.RowMatch.Statement (.sys nnn) :=
  Laws.rowMatch_F000 rfl (by rw [encode, fieldOp_formatANNN]; rfl)

theorem Laws.RowMatch.cls : Laws.RowMatch.Statement .cls := by
  intro _; decide

theorem Laws.RowMatch.ret : Laws.RowMatch.Statement .ret := by
  intro _; decide

theorem Laws.RowMatch.jp (nnn : Addr) : Laws.RowMatch.Statement (.jp nnn) :=
  Laws.rowMatch_F000 rfl (by rw [encode, fieldOp_formatANNN]; rfl)

theorem Laws.RowMatch.call (nnn : Addr) : Laws.RowMatch.Statement (.call nnn) :=
  Laws.rowMatch_F000 rfl (by rw [encode, fieldOp_formatANNN]; rfl)

theorem Laws.RowMatch.seImm (x : Nibble) (nn : Byte) : Laws.RowMatch.Statement (.seImm x nn) :=
  Laws.rowMatch_F000 rfl (by rw [encode, fieldOp_formatXNN]; rfl)

theorem Laws.RowMatch.sneImm (x : Nibble) (nn : Byte) : Laws.RowMatch.Statement (.sneImm x nn) :=
  Laws.rowMatch_F000 rfl (by rw [encode, fieldOp_formatXNN]; rfl)

theorem Laws.RowMatch.seReg (x y : Nibble) : Laws.RowMatch.Statement (.seReg x y) :=
  Laws.rowMatch_F00F rfl (by rw [encode, fieldOp_formatXYN, fieldN_formatXYN]; rfl)

theorem Laws.RowMatch.ldImm (x : Nibble) (nn : Byte) : Laws.RowMatch.Statement (.ldImm x nn) :=
  Laws.rowMatch_F000 rfl (by rw [encode, fieldOp_formatXNN]; rfl)

theorem Laws.RowMatch.addImm (x : Nibble) (nn : Byte) : Laws.RowMatch.Statement (.addImm x nn) :=
  Laws.rowMatch_F000 rfl (by rw [encode, fieldOp_formatXNN]; rfl)

theorem Laws.RowMatch.ldReg (x y : Nibble) : Laws.RowMatch.Statement (.ldReg x y) :=
  Laws.rowMatch_F00F rfl (by rw [encode, fieldOp_formatXYN, fieldN_formatXYN]; rfl)

theorem Laws.RowMatch.orReg (x y : Nibble) : Laws.RowMatch.Statement (.orReg x y) :=
  Laws.rowMatch_F00F rfl (by rw [encode, fieldOp_formatXYN, fieldN_formatXYN]; rfl)

theorem Laws.RowMatch.andReg (x y : Nibble) : Laws.RowMatch.Statement (.andReg x y) :=
  Laws.rowMatch_F00F rfl (by rw [encode, fieldOp_formatXYN, fieldN_formatXYN]; rfl)

theorem Laws.RowMatch.xorReg (x y : Nibble) : Laws.RowMatch.Statement (.xorReg x y) :=
  Laws.rowMatch_F00F rfl (by rw [encode, fieldOp_formatXYN, fieldN_formatXYN]; rfl)

theorem Laws.RowMatch.addReg (x y : Nibble) : Laws.RowMatch.Statement (.addReg x y) :=
  Laws.rowMatch_F00F rfl (by rw [encode, fieldOp_formatXYN, fieldN_formatXYN]; rfl)

theorem Laws.RowMatch.sub (x y : Nibble) : Laws.RowMatch.Statement (.sub x y) :=
  Laws.rowMatch_F00F rfl (by rw [encode, fieldOp_formatXYN, fieldN_formatXYN]; rfl)

theorem Laws.RowMatch.shr (x y : Nibble) : Laws.RowMatch.Statement (.shr x y) :=
  Laws.rowMatch_F00F rfl (by rw [encode, fieldOp_formatXYN, fieldN_formatXYN]; rfl)

theorem Laws.RowMatch.subn (x y : Nibble) : Laws.RowMatch.Statement (.subn x y) :=
  Laws.rowMatch_F00F rfl (by rw [encode, fieldOp_formatXYN, fieldN_formatXYN]; rfl)

theorem Laws.RowMatch.shl (x y : Nibble) : Laws.RowMatch.Statement (.shl x y) :=
  Laws.rowMatch_F00F rfl (by rw [encode, fieldOp_formatXYN, fieldN_formatXYN]; rfl)

theorem Laws.RowMatch.sneReg (x y : Nibble) : Laws.RowMatch.Statement (.sneReg x y) :=
  Laws.rowMatch_F00F rfl (by rw [encode, fieldOp_formatXYN, fieldN_formatXYN]; rfl)

theorem Laws.RowMatch.ldI (nnn : Addr) : Laws.RowMatch.Statement (.ldI nnn) :=
  Laws.rowMatch_F000 rfl (by rw [encode, fieldOp_formatANNN]; rfl)

theorem Laws.RowMatch.jpV0 (nnn : Addr) : Laws.RowMatch.Statement (.jpV0 nnn) :=
  Laws.rowMatch_F000 rfl (by rw [encode, fieldOp_formatANNN]; rfl)

theorem Laws.RowMatch.rnd (x : Nibble) (nn : Byte) : Laws.RowMatch.Statement (.rnd x nn) :=
  Laws.rowMatch_F000 rfl (by rw [encode, fieldOp_formatXNN]; rfl)

theorem Laws.RowMatch.drw (x y n : Nibble) : Laws.RowMatch.Statement (.drw x y n) :=
  Laws.rowMatch_F000 rfl (by rw [encode, fieldOp_formatXYN]; rfl)

theorem Laws.RowMatch.skp (x : Nibble) : Laws.RowMatch.Statement (.skp x) :=
  Laws.rowMatch_F0FF rfl (by rw [encode, fieldOp_formatXNN, fieldNN_formatXNN]; rfl)

theorem Laws.RowMatch.sknp (x : Nibble) : Laws.RowMatch.Statement (.sknp x) :=
  Laws.rowMatch_F0FF rfl (by rw [encode, fieldOp_formatXNN, fieldNN_formatXNN]; rfl)

theorem Laws.RowMatch.ldVxDt (x : Nibble) : Laws.RowMatch.Statement (.ldVxDt x) :=
  Laws.rowMatch_F0FF rfl (by rw [encode, fieldOp_formatXNN, fieldNN_formatXNN]; rfl)

theorem Laws.RowMatch.ldVxK (x : Nibble) : Laws.RowMatch.Statement (.ldVxK x) :=
  Laws.rowMatch_F0FF rfl (by rw [encode, fieldOp_formatXNN, fieldNN_formatXNN]; rfl)

theorem Laws.RowMatch.ldDtVx (x : Nibble) : Laws.RowMatch.Statement (.ldDtVx x) :=
  Laws.rowMatch_F0FF rfl (by rw [encode, fieldOp_formatXNN, fieldNN_formatXNN]; rfl)

theorem Laws.RowMatch.ldStVx (x : Nibble) : Laws.RowMatch.Statement (.ldStVx x) :=
  Laws.rowMatch_F0FF rfl (by rw [encode, fieldOp_formatXNN, fieldNN_formatXNN]; rfl)

theorem Laws.RowMatch.addIVx (x : Nibble) : Laws.RowMatch.Statement (.addIVx x) :=
  Laws.rowMatch_F0FF rfl (by rw [encode, fieldOp_formatXNN, fieldNN_formatXNN]; rfl)

theorem Laws.RowMatch.ldFVx (x : Nibble) : Laws.RowMatch.Statement (.ldFVx x) :=
  Laws.rowMatch_F0FF rfl (by rw [encode, fieldOp_formatXNN, fieldNN_formatXNN]; rfl)

theorem Laws.RowMatch.ldBVx (x : Nibble) : Laws.RowMatch.Statement (.ldBVx x) :=
  Laws.rowMatch_F0FF rfl (by rw [encode, fieldOp_formatXNN, fieldNN_formatXNN]; rfl)

theorem Laws.RowMatch.ldMemVx (x : Nibble) : Laws.RowMatch.Statement (.ldMemVx x) :=
  Laws.rowMatch_F0FF rfl (by rw [encode, fieldOp_formatXNN, fieldNN_formatXNN]; rfl)

theorem Laws.RowMatch.ldVxMem (x : Nibble) : Laws.RowMatch.Statement (.ldVxMem x) :=
  Laws.rowMatch_F0FF rfl (by rw [encode, fieldOp_formatXNN, fieldNN_formatXNN]; rfl)

end Sys2Proof
end

