-- ==== Sys2Proof/Tests/Slice0.lean ====
section
/-! SUPPORT. Tests: the WellFormed smoke, words written out from the spec's encodings, one or two single steps per instruction with the expected results of spec/95_test_vectors.md (the vector's id stands above each), and a witness for the hypotheses of every statement. -/

namespace Sys2Proof.Tests

open Sys2Proof.Machine

/-! ### Helpers -/

/-- The next state of an outcome, or the state it began with. -/
def nextOr (s : State) (o : Host.Outcome State Fault Refusal) : State :=
  match o with
  | .next t => t
  | .fault _ => s
  | .refused _ => s

/-- One STEP of `s` with the word `w` at pc. -/
def stepWord (s : State) (w : Nat) : State := nextOr s (step (s.withFetchWord 16 w))

/-- Registers set from pairs. -/
def withV (s : State) (l : List (Nat × Nat)) : State :=
  l.foldl (fun s p => s.writeV (BitVec.ofNat 4 p.1) (BitVec.ofNat 8 p.2)) s

/-- I set, and bytes stored from there. -/
def withMem (s : State) (a : Nat) (l : List Nat) : State :=
  (s.memWriteList a (l.map (BitVec.ofNat 8))).writeI (BitVec.ofNat 16 a)

/-- A register's value as a number. -/
def vAt (s : State) (x : Nat) : Nat := (s.readV (BitVec.ofNat 4 x)).toNat

/-- `n` bytes from `a` as numbers. -/
def bytesAt (s : State) (a n : Nat) : List Nat := (List.range n).map fun k => (s.memRead (a + k)).toNat

/-- The fault state and pc as R202 leaves them. -/
def faultView (s : State) : Bool × Nat × Nat × Nat := (s.halted, s.faultCause.toNat, s.faultPc.toNat, s.pc.toNat)

/-- A core after reset, in COSMAC mode. -/
def r0 : State := State.reset

/-- A core after reset, in CHIP48 mode. -/
def c0 : State := State.reset.withMode .chip48

/-- A running core with nothing at its reset value but the configuration, for witnesses: pc and I near the top of memory. -/
def s1 : State := { State.reset with pc := 0xFFC, i := 0xFFE, sp := 15, dt := 9, st := 2, rng := 3 }

/-! ### WellFormed: the one check, and an ill-formed term on each side of it -/

theorem test_wellFormed_refuses_sys_cls : (Instr.sys 0x0E0).WellFormed = false := by decide
theorem test_wellFormed_refuses_sys_ret : (Instr.sys 0x0EE).WellFormed = false := by decide
theorem test_wellFormed_takes_sys_zero : (Instr.sys 0x000).WellFormed = true := by decide
theorem test_wellFormed_takes_sys_0E1 : (Instr.sys 0x0E1).WellFormed = true := by decide

/-! ### Decoding words written out bit by bit from the patterns of 30_encoding.md R72 and R76 -/

theorem test_decode_sys : decode 0b0000_0001_0010_0011 = .ok (.sys 0x123) := by decide
theorem test_decode_cls : decode 0b0000_0000_1110_0000 = .ok .cls := by decide
theorem test_decode_ret : decode 0b0000_0000_1110_1110 = .ok .ret := by decide
theorem test_decode_01E0_is_sys : decode 0x01E0 = .ok (.sys 0x1E0) := by decide
theorem test_decode_jp : decode 0b0001_1010_1011_1100 = .ok (.jp 0xABC) := by decide
theorem test_decode_call : decode 0b0010_0011_0100_0101 = .ok (.call 0x345) := by decide
theorem test_decode_seImm : decode 0b0011_1010_0100_0010 = .ok (.seImm 0xA 0x42) := by decide
theorem test_decode_sneImm : decode 0b0100_1010_0100_0010 = .ok (.sneImm 0xA 0x42) := by decide
theorem test_decode_seReg : decode 0b0101_0001_0010_0000 = .ok (.seReg 1 2) := by decide
theorem test_decode_ldImm : decode 0b0110_1010_1111_1111 = .ok (.ldImm 0xA 0xFF) := by decide
theorem test_decode_addImm : decode 0b0111_0001_1111_1110 = .ok (.addImm 1 0xFE) := by decide
theorem test_decode_ldReg : decode 0b1000_0001_0010_0000 = .ok (.ldReg 1 2) := by decide
theorem test_decode_orReg : decode 0b1000_0001_0010_0001 = .ok (.orReg 1 2) := by decide
theorem test_decode_andReg : decode 0b1000_0001_0010_0010 = .ok (.andReg 1 2) := by decide
theorem test_decode_xorReg : decode 0b1000_0001_0010_0011 = .ok (.xorReg 1 2) := by decide
theorem test_decode_addReg : decode 0b1000_0011_0100_0100 = .ok (.addReg 3 4) := by decide
theorem test_decode_sub : decode 0b1000_0001_0010_0101 = .ok (.sub 1 2) := by decide
theorem test_decode_shr : decode 0b1000_0001_0010_0110 = .ok (.shr 1 2) := by decide
theorem test_decode_subn : decode 0b1000_0001_0010_0111 = .ok (.subn 1 2) := by decide
theorem test_decode_shl : decode 0b1000_0001_0010_1110 = .ok (.shl 1 2) := by decide
theorem test_decode_sneReg : decode 0b1001_0001_0010_0000 = .ok (.sneReg 1 2) := by decide
theorem test_decode_ldI : decode 0b1010_0001_0010_0011 = .ok (.ldI 0x123) := by decide
theorem test_decode_jpV0 : decode 0b1011_0011_0000_0001 = .ok (.jpV0 0x301) := by decide
theorem test_decode_rnd : decode 0b1100_0011_0000_1111 = .ok (.rnd 3 0x0F) := by decide
theorem test_decode_drw : decode 0b1101_0001_0010_0101 = .ok (.drw 1 2 5) := by decide
theorem test_decode_skp : decode 0b1110_0101_1001_1110 = .ok (.skp 5) := by decide
theorem test_decode_sknp : decode 0b1110_0101_1010_0001 = .ok (.sknp 5) := by decide
theorem test_decode_ldVxDt : decode 0b1111_0100_0000_0111 = .ok (.ldVxDt 4) := by decide
theorem test_decode_ldVxK : decode 0b1111_0011_0000_1010 = .ok (.ldVxK 3) := by decide
theorem test_decode_ldDtVx : decode 0b1111_1010_0001_0101 = .ok (.ldDtVx 0xA) := by decide
theorem test_decode_ldStVx : decode 0b1111_0010_0001_1000 = .ok (.ldStVx 2) := by decide
theorem test_decode_addIVx : decode 0b1111_0001_0001_1110 = .ok (.addIVx 1) := by decide
theorem test_decode_ldFVx : decode 0b1111_0000_0010_1001 = .ok (.ldFVx 0) := by decide
theorem test_decode_ldBVx : decode 0b1111_1100_0011_0011 = .ok (.ldBVx 0xC) := by decide
theorem test_decode_ldMemVx : decode 0b1111_0011_0101_0101 = .ok (.ldMemVx 3) := by decide
theorem test_decode_ldVxMem : decode 0b1111_0010_0110_0101 = .ok (.ldVxMem 2) := by decide

/-- The edges of each unrecognized set (R77). -/
theorem test_decode_unrecognized :
    decode 0x5001 = .error (.unrecognized5 1) ∧ decode 0x9FFF = .error (.unrecognized9 0xF) ∧
    decode 0x8008 = .error (.unrecognized8 8) ∧ decode 0x800D = .error (.unrecognized8 0xD) ∧
    decode 0x800F = .error (.unrecognized8 0xF) ∧ decode 0xE09F = .error (.unrecognizedE 0x9F) ∧
    decode 0xE0A0 = .error (.unrecognizedE 0xA0) ∧ decode 0xF066 = .error (.unrecognizedF 0x66) := by decide

theorem test_decodeBytes : decodeBytes [0xD1, 0x25, 0x77] = .ok (.drw 1 2 5, [0x77]) := by rfl
theorem test_decodeBytes_truncated : decodeBytes [0xD1] = .error .truncated := by rfl
theorem test_decodeTableWord : decodeTableWord 16 0xF365 = some (.ldVxMem 3) := by decide

/-! ### Memory and reset -/

/-- Every boundary of the reset contents (20_memory.md R52, R53). -/
theorem test_reset_bytes :
    [0x04F, 0x050, 0x054, 0x055, 0x09F, 0x0A0, 0x200, 0xFFF].map (fun a => (r0.memRead a).toNat) =
      [0, 0xF0, 0xF0, 0x20, 0x80, 0, 0, 0] := by decide

/-- Storing what an unlisted address reads as removes the cell: here the font's first byte. -/
theorem test_memWrite_canonical : ((r0.memWrite 0x050 0x11).memWrite 0x050 0xF0).mem = [] := by decide

/-- "a fetch at pc = 0xFFF reads mem[0xFFF] as bits 15:8 and mem[0x000] as bits 7:0" (20_memory.md R62, vector F19). -/
theorem test_fetch_wraps :
    let t := nextOr r0 (step { withMem r0 0xFFF [0x61, 0x23] with pc := 0xFFF })
    vAt t 1 = 0x23 ∧ t.pc = 0x001 := by decide

/-- Vector F25. -/
theorem test_halted_step : step { r0 with halted := true } = .next { r0 with halted := true } := by rfl

/-! ### Control flow: vectors F1 to F23 -/

theorem test_sys_F20 : (stepWord r0 0x0123).pc = 0x202 ∧ (stepWord r0 0x0123).v = r0.v := by decide
theorem test_ret_F6 :
    let t := stepWord { r0 with sp := 1, stack := r0.stack.set 0 0x456 } 0x00EE
    t.pc = 0x456 ∧ t.sp = 0 ∧ t.stack[0] = 0x456 := by decide
theorem test_ret_underflow_F7 : faultView (stepWord r0 0x00EE) = (true, 2, 0x200, 0x200) := by decide
theorem test_jp_F1 : (stepWord r0 0x1ABC).pc = 0xABC := by decide
theorem test_call_F4 :
    let t := stepWord { r0 with sp := 15 } 0x2ABC
    t.pc = 0xABC ∧ t.sp = 16 ∧ t.stack[15] = 0x202 := by decide
theorem test_call_overflow_F5 : faultView (stepWord { r0 with sp := 16 } 0x2ABC) = (true, 1, 0x200, 0x200) := by decide
theorem test_seImm_F8 : (stepWord (withV r0 [(0xA, 0x42)]) 0x3A42).pc = 0x204 := by decide
theorem test_seImm_wraps_F17 : (stepWord { r0 with pc := 0xFFC } 0x3000).pc = 0x000 := by decide
theorem test_sneImm_F10 : (stepWord (withV r0 [(0xA, 0x42)]) 0x4A42).pc = 0x202 := by decide
theorem test_sneImm_F11 : (stepWord (withV r0 [(0xA, 0x41)]) 0x4A42).pc = 0x204 := by decide
theorem test_seReg_F12 : (stepWord (withV r0 [(0xA, 3), (0xB, 3)]) 0x5AB0).pc = 0x204 := by decide
theorem test_unrecognized_F13 : (stepWord (withV r0 [(0xA, 3), (0xB, 3)]) 0x5AB1).pc = 0x202 := by decide
theorem test_sneReg_F14 : (stepWord (withV r0 [(0xA, 3), (0xB, 4)]) 0x9AB0).pc = 0x204 := by decide
theorem test_sneReg_F15 : (stepWord (withV r0 [(0xA, 3), (0xB, 3)]) 0x9AB0).pc = 0x202 := by decide

/-! ### Registers and arithmetic: vectors A1 to A28 -/

theorem test_ldImm_A6 : vAt (stepWord r0 0x6AFF) 0xA = 0xFF ∧ (stepWord r0 0x6AFF).pc = 0x202 := by decide
theorem test_addImm_A25 : vAt (stepWord (withV r0 [(0xF, 0x10)]) 0x7F05) 0xF = 0x15 := by decide
theorem test_addImm_A26 : vAt (stepWord r0 0x71FF) 1 = 0xFF ∧ vAt (stepWord r0 0x71FF) 0xF = 0 := by decide
theorem test_ldReg_A23 :
    let t := stepWord (withV r0 [(1, 0x01), (2, 0x7E), (0xF, 0x99)]) 0x8120
    vAt t 1 = 0x7E ∧ vAt t 0xF = 0x99 := by decide
theorem test_orReg_A19 :
    let t := stepWord (withV r0 [(1, 0xF0), (2, 0x0F), (0xF, 0x55)]) 0x8121
    vAt t 1 = 0xFF ∧ vAt t 0xF = 0x00 := by decide
theorem test_orReg_A22 : vAt (stepWord (withV c0 [(0xF, 0x05), (1, 0xA0)]) 0x8F11) 0xF = 0xA5 := by decide
theorem test_andReg_A27 : vAt (stepWord (withV r0 [(1, 0x0F), (2, 0xF0)]) 0x8122) 1 = 0 := by decide
theorem test_xorReg_A28 : vAt (stepWord (withV r0 [(1, 0x5A)]) 0x8113) 1 = 0 := by decide
/-- The example of R126. -/
theorem test_xorReg_R126 : vAt (stepWord (withV r0 [(1, 0xFF), (2, 0x0F)]) 0x8123) 1 = 0xF0 := by decide
theorem test_addReg_A1 :
    let t := stepWord (withV r0 [(1, 0xFF), (2, 0x01)]) 0x8124
    vAt t 1 = 0x00 ∧ vAt t 0xF = 1 := by decide
theorem test_addReg_A4 : vAt (stepWord (withV r0 [(0xF, 0xFF), (1, 0x01)]) 0x8F14) 0xF = 1 := by decide
theorem test_sub_A7 :
    let t := stepWord (withV r0 [(1, 0x01), (2, 0x02)]) 0x8125
    vAt t 1 = 0xFF ∧ vAt t 0xF = 0 := by decide
theorem test_sub_A9 :
    let t := stepWord (withV r0 [(1, 0x33)]) 0x8115
    vAt t 1 = 0x00 ∧ vAt t 0xF = 1 := by decide
theorem test_shr_A13 :
    let t := stepWord (withV r0 [(1, 0x80), (2, 0x03)]) 0x8126
    vAt t 1 = 0x01 ∧ vAt t 0xF = 1 := by decide
theorem test_shr_A14 :
    let t := stepWord (withV c0 [(1, 0x80), (2, 0x03)]) 0x8126
    vAt t 1 = 0x40 ∧ vAt t 0xF = 0 := by decide
theorem test_subn_A10 :
    let t := stepWord (withV r0 [(1, 0x02), (2, 0x01)]) 0x8127
    vAt t 1 = 0xFF ∧ vAt t 0xF = 0 := by decide
theorem test_subn_A12 :
    let t := stepWord (withV r0 [(1, 0x07), (2, 0x07)]) 0x8127
    vAt t 1 = 0x00 ∧ vAt t 0xF = 1 := by decide
theorem test_shl_A15 :
    let t := stepWord (withV r0 [(1, 0x81), (2, 0x40)]) 0x812E
    vAt t 1 = 0x80 ∧ vAt t 0xF = 0 := by decide
theorem test_shl_A16 :
    let t := stepWord (withV c0 [(1, 0x81), (2, 0x40)]) 0x812E
    vAt t 1 = 0x02 ∧ vAt t 0xF = 1 := by decide

/-! ### Index, jump, random: vectors X1 to X6 -/

theorem test_ldI_X1 : (stepWord r0 0xA123).i = 0x123 := by decide
theorem test_jpV0_X3 : (stepWord (withV r0 [(0, 0xFF)]) 0xBFFF).pc = 0x0FE := by decide
/-- Vector X5, for the byte of every draw. -/
theorem test_rnd_X5 (n : Nat) :
    ∃ t, exec (.rnd 3 0x00) { r0 with rng := n } = .next t ∧ t.readV 3 = 0 ∧ t.rng = n + 1 :=
  ⟨_, rfl, by simp, by simp⟩
/-- Vector X6: NN = 0xFF gives the draw itself. -/
theorem test_rnd_X6 : ∃ t, exec (.rnd 3 0xFF) r0 = .next t ∧ t.readV 3 = Config.randomByte 0 :=
  ⟨_, rfl, by
    simp only [State.readV_writeV, if_pos]
    exact BitVec.and_allOnes (x := Config.randomByte 0)⟩

/-! ### Display: vectors G1 to G8 -/

theorem test_cls_G8 : (stepWord { r0 with disp := Display.blank.setCell 5 6 true } 0x00E0).disp.cell 5 6 = false := by decide
/-- Vector G4: both coordinates are reduced. -/
theorem test_drw_G4 :
    let t := stepWord (withV (withMem r0 0x300 [0xC0, 0x80]) [(1, 70), (2, 40)]) 0xD122
    t.disp.cell 6 8 = true ∧ t.disp.cell 7 8 = true ∧ t.disp.cell 6 9 = true ∧ t.disp.cell 7 9 = false ∧ vAt t 0xF = 0 := by
  decide
/-- R154's example: drawing 0x01 over 0xFF at (0, 0) turns off disp[7][0] alone, and counts. -/
theorem test_drw_G7 :
    let s := { withMem r0 0x300 [0x01] with disp := (Display.blank.setCell 7 0 true).setCell 6 0 true }
    let t := stepWord s 0xD121
    t.disp.cell 7 0 = false ∧ t.disp.cell 6 0 = true ∧ vAt t 0xF = 1 := by decide

/-! ### Keypad: vectors K1 to K12 -/

theorem test_skp_K1 : (stepWord (withV (r0.setKey 5 true) [(5, 5)]) 0xE59E).pc = 0x204 := by decide
theorem test_skp_K5 : faultView (stepWord (withV r0 [(5, 0x10)]) 0xE59E) = (true, 3, 0x200, 0x200) := by decide
theorem test_sknp_K3 : (stepWord (withV r0 [(5, 5)]) 0xE5A1).pc = 0x204 := by decide
theorem test_sknp_K6 : faultView (stepWord (withV r0 [(5, 0xFF)]) 0xE5A1) = (true, 3, 0x200, 0x200) := by decide
theorem test_ldVxK_K9 :
    let t := stepWord ((r0.setKey 7 true).setKey 0xB true) 0xF30A
    vAt t 3 = 0x07 ∧ t.pc = 0x202 := by decide
theorem test_ldVxK_K12 : (stepWord { r0 with pc := 0xFFE } 0xF30A).pc = 0xFFE := by decide

/-! ### Timers and commands: vectors T1 to T7, L1 to L5 -/

theorem test_ldVxDt_T1 : vAt (stepWord { r0 with dt := 0x2A } 0xF307) 3 = 0x2A := by decide
theorem test_ldDtVx_T2 : (stepWord (withV r0 [(3, 0x10)]) 0xF315).dt = 0x10 := by decide
theorem test_ldStVx_T3 : (stepWord (withV r0 [(3, 0x01)]) 0xF318).audioPort = true := by decide
theorem test_ldStVx_T7 : (stepWord (withV { r0 with st := 9 } [(3, 0)]) 0xF318).audioPort = false := by decide
theorem test_tick_T6 :
    let t := State.tick { r0 with dt := 5, st := 2, halted := true }
    t.dt = 4 ∧ t.st = 1 := by decide
theorem test_tick_T5 : r0.tick = r0 := by decide
theorem test_load_L1 : (r0.load (List.replicate 3585 7)).2 = .fail := by
  unfold State.load; rw [if_pos (by rw [List.length_replicate]; decide)]
theorem test_load_L2 : (r0.load (List.replicate 3584 7)).2 = .ok := by
  unfold State.load; rw [if_neg (by rw [List.length_replicate]; decide)]
theorem test_load_L3 : r0.load [] = (r0, .ok) := by rfl
theorem test_reset_L5 :
    let t := State.applyReset { s1 with halted := true, faultCause := 1, faultPc := 0xFFC }
    t = State.resetWith defaultConfig t.rng := by rfl

/-! ### Index memory: vectors M1 to M14 -/

theorem test_addIVx_M1 :
    let t := stepWord { withV r0 [(3, 0x10), (0xF, 7)] with i := 0xFF8 } 0xF31E
    t.i = 0x008 ∧ vAt t 0xF = 7 := by decide
theorem test_ldFVx_M3 : (stepWord (withV r0 [(3, 0x0A)]) 0xF329).i = 0x082 := by decide
theorem test_ldFVx_M4 : (stepWord (withV r0 [(3, 0xFF)]) 0xF329).i = 0x54B := by decide
theorem test_ldBVx_M5 : bytesAt (stepWord { withV r0 [(3, 156)] with i := 0x300 } 0xF333) 0x300 3 = [1, 5, 6] := by decide
theorem test_ldBVx_M8 :
    let t := stepWord { withV r0 [(3, 123)] with i := 0xFFE } 0xF333
    bytesAt t 0xFFE 3 = [1, 2, 3] ∧ t.i = 0xFFE := by decide
theorem test_ldMemVx_M9 :
    let t := stepWord { withV r0 [(0, 1), (1, 2), (2, 3), (3, 4)] with i := 0x300 } 0xF255
    bytesAt t 0x300 4 = [1, 2, 3, 0] ∧ t.i = 0x303 := by decide
/-- R183's corner case: I = 0xFFE with X = 3 wraps, and gives I = 0x002. -/
theorem test_ldMemVx_wraps :
    let t := stepWord { withV r0 [(0, 1), (1, 2), (2, 3), (3, 4)] with i := 0xFFE } 0xF355
    bytesAt t 0xFFE 4 = [1, 2, 3, 4] ∧ t.i = 0x002 := by decide
theorem test_ldVxMem_M11 :
    let t := stepWord (withMem r0 0x300 [0x11, 0x22, 0x33, 0x44, 0x55]) 0xF365
    (List.range 5).map (vAt t) = [0x11, 0x22, 0x33, 0x44, 0] ∧ t.i = 0x304 := by decide
theorem test_ldVxMem_M14 :
    let t := stepWord { withMem r0 0x30F [0xAA] with i := 0x300 } 0xFF65
    vAt t 0xF = 0xAA ∧ t.i = 0x310 := by decide

/-! ### Witnesses: concrete states and operands that meet every hypothesis of a statement, at the edges of its clauses -/

/-- The state the witnesses start from meets the invariant and is not halted. -/
theorem witness_inv : s1.Inv ∧ s1.halted = false := by
  refine ⟨⟨by decide, by decide, by decide, by rfl, by decide, by decide⟩, rfl⟩

/-- A halted state meets the invariant too. -/
theorem witness_inv_halted : (s1.takeFault .stackOverflow).Inv ∧ (s1.takeFault .stackOverflow).halted = true := by
  refine ⟨⟨by decide, by decide, by decide, by rfl, by decide, by decide⟩, rfl⟩

theorem witness_canonical : Memory.wf (resetByte (withMem r0 0xFFF [1, 2]).config) (withMem r0 0xFFF [1, 2]).mem = true := by
  decide

theorem witness_DecodeOfEncodeIsTheInstruction :
    (Instr.sys 0x0EF).WellFormed = true ∧ (Instr.drw 0xF 0xF 0xF).WellFormed = true := by decide

theorem witness_EncodeOfDecodeIsTheWord : decode 0x0FFF = .ok (.sys 0xFFF) ∧ decode 0xFF65 = .ok (.ldVxMem 0xF) := by decide

/-- Each clause: SYS's row selects the words of CLS and RET as well as its own, and the last row selects 0xFF65. -/
theorem witness_DecoderIsTheOpcodeMap :
    (⟨0xF000, 0x0000⟩ : OpcodeRow) ∈ opcodeRows ∧ (⟨0xF000, 0x0000⟩ : OpcodeRow).selects 0x00E0 = true ∧
    (⟨0xF000, 0x0000⟩ : OpcodeRow).selects 0x00EE = true ∧ (⟨0xF000, 0x0000⟩ : OpcodeRow).selects 0x0000 = true ∧
    (⟨0xF0FF, 0xF065⟩ : OpcodeRow) ∈ opcodeRows ∧ (⟨0xF0FF, 0xF065⟩ : OpcodeRow).selects 0xFF65 = true := by decide

/-- The word at 0x200 decodes right after reset, and after a RESET of a core with a program. -/
theorem witness_ResetStartsAt0x200 :
    decode (wordOfBytes (State.reset.memRead 0x200) (State.reset.memRead 0x201)) = .ok (.sys 0) ∧
    decode (wordOfBytes (s1.applyReset.memRead 0x200) (s1.applyReset.memRead 0x201)) = .ok (.sys 0) := by decide

/-- Also a witness of the whole-machine rules' step. -/
theorem witness_StepKeepsTheInvariant : s1.Inv ∧ ∃ t, step s1 = .next t := ⟨witness_inv.1, _, rfl⟩

theorem witness_StepRunsTheDecodedInstruction :
    s1.halted = false ∧ decode s1.fetchWord = .ok (.sys 0x000) := by decide

theorem witness_UnrecognizedWordOnlyAdvancesPc :
    (s1.withFetchWord 16 0x8008).halted = false ∧
    decode (s1.withFetchWord 16 0x8008).fetchWord = .error (.unrecognized8 8) := by decide

/-- A self-jump at the last even address and one at an odd address. -/
theorem witness_SelfJumpIsAFixedPoint :
    let s := State.withFetchWord { r0 with pc := 0xFFE } 16 0x1FFE
    let s' := State.withFetchWord { r0 with pc := 0x201 } 16 0x1201
    (s.halted = false ∧ s.pc.toNat < 4096 ∧ s.fetchWord.toNat = 0x1000 + s.pc.toNat) ∧
    (s'.halted = false ∧ s'.pc.toNat < 4096 ∧ s'.fetchWord.toNat = 0x1000 + s'.pc.toNat) := by decide

/-- Each form of the fault table, at the edge of its condition, and the neighbour that does not fault. -/
theorem witness_FaultingFormsTakeTheirFault :
    (Instr.call 0x300).FaultsWith { r0 with sp := 16 } 1 ∧ Instr.ret.FaultsWith r0 2 ∧
    (Instr.skp 5).FaultsWith (withV r0 [(5, 16)]) 3 ∧ (Instr.sknp 5).FaultsWith (withV r0 [(5, 255)]) 3 :=
  ⟨.inl ⟨⟨_, rfl⟩, rfl, rfl⟩, .inr (.inl ⟨rfl, rfl, rfl⟩),
    .inr (.inr ⟨⟨5, .inl rfl, by decide⟩, rfl⟩), .inr (.inr ⟨⟨5, .inr rfl, by decide⟩, rfl⟩)⟩

/-- A running core that meets the invariant and steps into a fault, and one that steps on (at an unrecognized word). -/
theorem witness_OnlyTheThreeFaultsHaltAndPrecisely :
    (r0.withFetchWord 16 0x00EE).Inv ∧ (r0.withFetchWord 16 0x00EE).halted = false ∧
    (nextOr r0 (step (r0.withFetchWord 16 0x00EE))).halted = true ∧ (r0.withFetchWord 16 0x5001).Inv ∧
    (nextOr r0 (step (r0.withFetchWord 16 0x5001))).halted = false := by
  refine ⟨⟨by decide, by decide, by decide, by rfl, by decide, by decide⟩, by decide, by decide,
    ⟨by decide, by decide, by decide, by rfl, by decide, by decide⟩, by decide⟩

theorem witness_OnlyResetClearsAHalt :
    let s := s1.takeFault .stackOverflow
    s.halted = true ∧ Command.reset ∉ [Command.step, .tick, .key 3 true, .load [1]] ∧
    ∃ t, runCommands [.step, .tick, .key 3 true, .load [1]] s = .next t := ⟨rfl, by decide, _, rfl⟩

theorem witness_SysIsANoOp : (Instr.sys 0x0E1).WellFormed = true := by decide

/-- The last free entry and the first. -/
theorem witness_CallPushesTheReturnAddress : s1.sp.val < 16 ∧ r0.sp.val < 16 := by decide

theorem witness_RetPopsTheReturnAddress : 0 < ({ r0 with sp := 1 } : State).sp.val ∧ 0 < ({ r0 with sp := 16 } : State).sp.val := by
  decide

theorem witness_CallThenRetComesBack : s1.sp.val < 16 ∧ ∃ t, exec (.call 0x300) s1 = .next t := ⟨by decide, _, rfl⟩

/-- Each of the four skips, taken and not taken. -/
theorem witness_SkipsCompareAndSkip :
    (True ↔ r0.readV 0 = 0) ∧ (False ↔ r0.readV 0 ≠ 0) ∧ (True ↔ r0.readV 1 = r0.readV 1) ∧ (False ↔ r0.readV 1 ≠ r0.readV 1) := by
  decide

/-- Each of the three logic instructions with its operation, in each mode. -/
theorem witness_LogicClearsVfOnlyInCosmac :
    (Instr.orReg 0xF 1 = .orReg 0xF 1 ∧ or = or) ∧ r0.config.compatMode = .cosmac ∧ c0.config.compatMode = .chip48 := by
  exact ⟨⟨rfl, rfl⟩, rfl, rfl⟩

theorem witness_SubtractSetsNoBorrow :
    (Instr.sub 1 2 = .sub 1 2 ∧ (0 : Byte) = r0.readV 1 ∧ (0 : Byte) = r0.readV 2) ∧
    (Instr.subn 1 2 = .subn 1 2 ∧ (0 : Byte) = r0.readV 2 ∧ (0 : Byte) = r0.readV 1) := by decide

theorem witness_ShiftsUseTheModesSource :
    let s := withV r0 [(1, 0x81), (2, 0x40)]
    let s' := withV c0 [(1, 0x81), (2, 0x40)]
    ((s.config.compatMode = .cosmac → (0x40 : Byte) = s.readV 2) ∧ (s.config.compatMode = .chip48 → (0x40 : Byte) = s.readV 1)) ∧
    ((s'.config.compatMode = .cosmac → (0x81 : Byte) = s'.readV 2) ∧
      (s'.config.compatMode = .chip48 → (0x81 : Byte) = s'.readV 1)) := by decide

theorem witness_ModeChangesFiveInstructionsOnly :
    (Instr.ldMemVx 0xF).modeDependent = false ∧ ∃ t, exec (.ldMemVx 0xF) s1 = .next t := ⟨rfl, _, rfl⟩

/-- FX55, FX33 and the read after a write at the wrap: 0x1FFF and 0xFFF are one byte, 0x000 another. -/
theorem witness_memory_statements :
    Memory.wf (resetByte s1.config) s1.mem = true ∧ 0x1FFF % 4096 = 0xFFF % 4096 ∧ 0x1000 % 4096 ≠ 0xFFF % 4096 := by decide

/-- Each clause, the last register pair of the block, and the first and the last word LOAD can place. -/
theorem witness_StoredWordIsFetchedNext :
    (∃ t, exec (.ldMemVx 0xF) { r0 with i := 0x1F2 } = .next t ∧ (14 : Nibble).toNat < (0xF : Nibble).toNat ∧
      t.pc.toNat % 4096 = (0x1F2 + 14) % 4096) ∧
    (∃ t, exec (.ldBVx 3) { r0 with i := 0x200 } = .next t ∧ t.pc.toNat % 4096 = 0x200 % 4096) ∧
    (∃ t, r0.load [1, 2] = (t, .ok) ∧ t.pc.toNat = 0x200 + 0) ∧
    ∃ t, State.load { r0 with pc := 0xFFE } (List.replicate 3584 7) = (t, .ok) :=
  ⟨⟨_, rfl, by decide, by decide⟩, ⟨_, rfl, by decide⟩, ⟨_, rfl, by decide⟩, _, by
    unfold State.load; rw [if_neg (by rw [List.length_replicate]; decide)]⟩

theorem witness_BlockStoreThenLoadGivesTheRegistersBack :
    ∃ t, exec (.ldMemVx 0xF) s1 = .next t ∧
      ∃ u : State, u.i = s1.i ∧ (∀ a, u.memRead a = t.memRead a) ∧ u.v = Vector.replicate 16 0 :=
  ⟨_, rfl, { s1.storeRegs s1.i.toNat 16 with v := Vector.replicate 16 0 }, by decide, fun _ => rfl, rfl⟩

theorem witness_DrawingTwiceRestoresTheDisplay :
    (1 : Nibble) ≠ vf ∧ (2 : Nibble) ≠ vf ∧ ∃ t u, exec (.drw 1 2 5) s1 = .next t ∧ exec (.drw 1 2 5) t = .next u :=
  ⟨by decide, by decide, _, _, rfl, rfl⟩

/-- Sprites for each clause about VF: one that covers a cell that is on, and one of no rows that covers none. -/
theorem witness_DrawXorsTheSprite :
    let s := { withMem r0 0xFFF [0x01] with disp := Display.blank.setCell 7 0 true }
    (s.SpriteCovers 0 0 1 7 0 ∧ s.disp.cell 7 0 = true) ∧ ∀ cx cy, ¬ s.SpriteCovers 0 0 0 cx cy := by
  refine ⟨⟨⟨0, by decide, 7, by decide, by decide, by decide, by decide⟩, by decide⟩, ?_⟩
  rintro cx cy ⟨r, hr, _⟩
  exact absurd hr (by simp)

/-- The last key index, pressed and not. -/
theorem witness_KeySkipsTestTheKey :
    let s := withV (r0.setKey 15 true) [(5, 15), (6, 0)]
    (s.readV 5).toNat < 16 ∧ s.keyDown 15 = true ∧ (s.readV 6).toNat < 16 ∧ s.keyDown 0 = false := by decide

theorem witness_KeyWaitTakesTheLeastKey :
    let s := (r0.setKey 7 true).setKey 15 true
    s.keyDown 7 = true ∧ (∀ j < (7 : Fin 16), s.keyDown j = false) ∧ (r0.setKey 0 true).keyDown 0 = true := by decide

theorem witness_KeyWaitRepeatsUntilAKey :
    let s := State.withFetchWord { r0 with pc := 0xFFE } 16 0xF30A
    s.halted = false ∧ s.pc.toNat < 4096 ∧ decode s.fetchWord = .ok (.ldVxK 3) ∧ (∀ k, s.keyDown k = false) := by decide

theorem witness_SetSoundTimer : (withV r0 [(3, 1)]).readV 3 = 1 := by decide

theorem witness_DelayTimerReadsBackAfterTicks : ∃ t, exec (.ldDtVx 3) (withV r0 [(3, 255)]) = .next t := ⟨_, rfl⟩

/-- The longest image LOAD takes, the shortest it refuses, and the empty one. -/
theorem witness_LoadStatements :
    (List.replicate 3584 (7 : Byte)).length = 3584 ∧ (List.replicate 3585 (7 : Byte)).length > 3584 ∧
    ([] : List Byte).length ≤ 3584 ∧ Memory.wf (resetByte s1.config) s1.mem = true := by
  exact ⟨List.length_replicate, by rw [List.length_replicate]; decide, by decide, by rfl⟩

theorem witness_OnlyTheVfWritersChangeVf :
    (Instr.orReg 1 2).writesVf .chip48 = false ∧ (Instr.ldVxMem 0xE).writesVf .cosmac = false ∧
    ∃ t, exec (.ldVxMem 0xE) s1 = .next t := ⟨rfl, by decide, _, rfl⟩

theorem witness_OnlyElevenInstructionsWritePc :
    (Instr.drw 1 2 3).writesPc = false ∧ ∃ t, exec (.drw 1 2 3) s1 = .next t := ⟨rfl, _, rfl⟩

/-- A step that changes each of the parts EachPartHasItsWriters names: memory and I by FX55, the display by CLS, the stack
and sp by CALL, the random source by RND. -/
theorem witness_EachPartHasItsWriters :
    (stepWord (withV s1 [(0, 5)]) 0xF055).memRead 0xFFE ≠ s1.memRead 0xFFE ∧ (stepWord s1 0xF055).i ≠ s1.i ∧
    (stepWord { s1 with disp := Display.blank.setCell 0 0 true } 0x00E0).disp.cell 0 0 = false ∧
    (stepWord s1 0x2300).stack[15] ≠ s1.stack[15] ∧ (stepWord s1 0x2300).sp ≠ s1.sp ∧
    (stepWord s1 0xC300).rng ≠ s1.rng := by decide

theorem witness_StepsLeaveTimersKeysAndConfigAlone :
    (stepWord s1 0xF315).dt ≠ s1.dt ∧ (stepWord s1 0xF318).st ≠ s1.st := by decide

theorem witness_NoInstructionReadsTheSoundTimer : ∃ t, step s1 = .next t ∧ t.st = 2 := ⟨_, rfl, rfl⟩

end Sys2Proof.Tests
end

/-! ### Control flow (40_flow.md): JP -/

namespace Sys2Proof.Machine

/-- How an encoding is proved: name the word by its format, whose fields the decoder reads back, and give its number. -/
theorem encodes_of_toNat {w : Word} {n : Nat} {i : Instr} (hn : w.toNat = n) (hd : decode w = .ok i) : Encodes n i := by
  rw [Encodes, ofNat_eq_of_toNat hn, hd]

theorem decode_formatANNN_jp (nnn : Addr) : decode (formatANNN 0x1 nnn) = .ok (.jp nnn) := by
  simp [decode]

theorem exec_jp (nnn : Addr) (s : State) : exec (.jp nnn) s = .next (s.setPc (addrOperand nnn)) := rfl

/-- Settles O22: JP is one `setPc`, to the operand as it stands (40_flow.md R103), so its frame is the frame of `setPc`. -/
theorem jpSetsPc : Obligations.JpSetsPc := by
  intro nnn s
  have hword : (formatANNN 0x1 nnn).toNat = 0x1000 + nnn.toNat := formatANNN_toNat 0x1 nnn
  have htarget : (s.setPc (addrOperand nnn)).pc.toNat = nnn.toNat := addrOperand_toNat nnn
  exact ⟨encodes_of_toNat hword (decode_formatANNN_jp nnn), _, exec_jp nnn s, htarget, setPc_changesOnly s _⟩

end Sys2Proof.Machine

/-! ### Register loads and the immediate add (41_alu.md): LD VX, NN; LD VX, VY; ADD VX, NN -/

namespace Sys2Proof.Machine

/-- An encoding in the form XNN as the spec writes it: the digits fixed by the opcode, then the operands. -/
theorem encodes_of_formatXNN {op x : Nibble} {nn : Byte} {i : Instr} {code : Nat} (hcode : op.toNat * 4096 = code)
    (hd : decode (formatXNN op x nn) = .ok i) : Encodes (code + 256 * x.toNat + nn.toNat) i := by
  have hword : (formatXNN op x nn).toNat = code + 256 * x.toNat + nn.toNat := by
    rw [formatXNN_toNat, ← hcode, Nat.mul_comm 256]
  exact encodes_of_toNat hword hd

/-- An encoding in the form XYN, where the last nibble is one of the digits fixed by the opcode. -/
theorem encodes_of_formatXYN {op x y n : Nibble} {i : Instr} {code : Nat} (hcode : op.toNat * 4096 + n.toNat = code)
    (hd : decode (formatXYN op x y n) = .ok i) : Encodes (code + 256 * x.toNat + 16 * y.toNat) i := by
  have hword : (formatXYN op x y n).toNat = code + 256 * x.toNat + 16 * y.toNat := by
    rw [formatXYN_toNat, ← hcode, Nat.mul_comm 256, Nat.mul_comm 16]; ac_rfl
  exact encodes_of_toNat hword hd

theorem decode_formatXNN_ldImm (x : Nibble) (nn : Byte) : decode (formatXNN 0x6 x nn) = .ok (.ldImm x nn) := by
  simp [decode]

theorem decode_formatXNN_addImm (x : Nibble) (nn : Byte) : decode (formatXNN 0x7 x nn) = .ok (.addImm x nn) := by
  simp [decode]

theorem decode_formatXYN_ldReg (x y : Nibble) : decode (formatXYN 0x8 x y 0x0) = .ok (.ldReg x y) := by
  simp [decode, decode8]

theorem exec_ldImm (x : Nibble) (nn : Byte) (s : State) : exec (.ldImm x nn) s = .next (s.writeV x nn) := rfl

theorem exec_ldReg (x y : Nibble) (s : State) : exec (.ldReg x y) s = .next (s.writeV x (s.readV y)) := rfl

theorem exec_addImm (x : Nibble) (nn : Byte) (s : State) :
    exec (.addImm x nn) s = .next (s.writeV x (s.readV x + nn)) := rfl

theorem State.readV_writeV_self (s : State) (x : Nibble) (b : Byte) : (s.writeV x b).readV x = b := by
  rw [State.readV_writeV, if_pos rfl]

/-- Settles O28: each load is one `writeV` of its operand (41_alu.md R121, R123) and looks at no mode, so what it changes is
what `writeV` changes. -/
theorem registerLoadsWriteVx : Obligations.RegisterLoadsWriteVx := by
  intro x y nn s
  refine ⟨?immEncoding, ?regEncoding, ?immEffect, ?regEffect⟩
  case immEncoding => exact encodes_of_formatXNN (by decide) (decode_formatXNN_ldImm x nn)
  case regEncoding => exact encodes_of_formatXYN (by decide) (decode_formatXYN_ldReg x y)
  case immEffect => exact ⟨_, exec_ldImm x nn s, s.readV_writeV_self x nn, writeV_changesOnly s x nn⟩
  case regEffect => exact ⟨_, exec_ldReg x y s, s.readV_writeV_self x _, writeV_changesOnly s x _⟩

/-- Settles O29: the sum is one `writeV` with the byte addition of R122, whose number is the sum mod 256; the frame of `writeV`
leaves no room for a carry. -/
theorem addImmediateWrapsWithoutCarry : Obligations.AddImmediateWrapsWithoutCarry := by
  intro x nn s
  have hsum : ((s.writeV x (s.readV x + nn)).readV x).toNat = ((s.readV x).toNat + nn.toNat) % 256 := by
    rw [State.readV_writeV_self, BitVec.toNat_add]
  exact ⟨encodes_of_formatXNN (by decide) (decode_formatXNN_addImm x nn), _, exec_addImm x nn s, hsum,
    writeV_changesOnly s x _⟩

end Sys2Proof.Machine

/-! ### Index load and random byte (42_index_jump_random.md): LD I, NNN; RND VX, NN -/

namespace Sys2Proof.Machine

theorem decode_formatANNN_ldI (nnn : Addr) : decode (formatANNN 0xA nnn) = .ok (.ldI nnn) := by
  simp [decode]

theorem decode_formatXNN_rnd (x : Nibble) (nn : Byte) : decode (formatXNN 0xC x nn) = .ok (.rnd x nn) := by
  simp [decode]

theorem exec_ldI (nnn : Addr) (s : State) : exec (.ldI nnn) s = .next (s.writeI (addrOperand nnn)) := rfl

theorem exec_rnd (x : Nibble) (nn : Byte) (s : State) :
    exec (.rnd x nn) s = .next (s.drawRandomByte.2.writeV x (Config.randomByte s.rng &&& nn)) := rfl

/-- Settles O35: LD I is one `writeI` of the operand as it stands (42_index_jump_random.md R140), so its frame is the frame
of `writeI`. -/
theorem loadIndexWritesI : Obligations.LoadIndexWritesI := by
  intro nnn s
  have hword : (formatANNN 0xA nnn).toNat = 0xA000 + nnn.toNat := formatANNN_toNat 0xA nnn
  have hindex : (s.writeI (addrOperand nnn)).i.toNat = nnn.toNat := addrOperand_toNat nnn
  exact ⟨encodes_of_toNat hword (decode_formatANNN_ldI nnn), _, exec_ldI nnn s, hindex, writeI_changesOnly s _⟩

/-- A bit the mask leaves out is 0, whatever the byte (R142). -/
theorem getLsbD_and_of_mask_false {r nn : Byte} {k : Nat} (hk : nn.getLsbD k = false) : (r &&& nn).getLsbD k = false := by
  rw [BitVec.getLsbD_and, hk, Bool.and_false]

/-- A draw, then a register write: the random source and the register, and no other part. -/
theorem drawRandomByte_writeV_changesOnly (s : State) (x : Nibble) (b : Byte) :
    ChangesOnly (· ∈ [.v x, .rng]) s (s.drawRandomByte.2.writeV x b) :=
  ((drawRandomByte_changesOnly s).mono (by simp +contextual)).trans
    ((writeV_changesOnly _ x b).mono (by simp +contextual))

/-- Settles O36: RND is a draw, then one `writeV` of the masked byte (R142). Nothing is used of the byte drawn (R143, D23). -/
theorem randomByteIsMasked : Obligations.RandomByteIsMasked := by
  intro x nn s
  refine ⟨encodes_of_formatXNN (by decide) (decode_formatXNN_rnd x nn), _, exec_rnd x nn s, ?result, ?maskedBits, ?source,
    drawRandomByte_writeV_changesOnly s x _⟩
  case result => exact State.readV_writeV_self _ x _
  case maskedBits =>
    intro k hk
    rw [State.readV_writeV_self]
    exact getLsbD_and_of_mask_false hk
  case source =>
    rw [State.writeV_rng, State.drawRandomByte_rng]
    exact Nat.succ_ne_self s.rng

end Sys2Proof.Machine

/-! ### Display (43_display.md): CLS -/

namespace Sys2Proof.Machine

theorem decode_encode_cls : decode (encode .cls) = .ok .cls := by decide

theorem exec_cls (s : State) : exec .cls s = .next (s.setDisp Display.blank) := rfl

/-- Settles O42: CLS is one `setDisp` to the blank grid (43_display.md R151), so its frame, VF included, is the frame of
`setDisp`. -/
theorem clsTurnsEveryCellOff : Obligations.ClsTurnsEveryCellOff := by
  intro s
  have hword : (encode .cls).toNat = 0x00E0 := rfl
  refine ⟨encodes_of_toNat hword decode_encode_cls, _, exec_cls s, ?cellsOff, setDisp_changesOnly s Display.blank⟩
  case cellsOff =>
    intro cx cy
    rw [State.setDisp_disp, Display.cell_blank]

end Sys2Proof.Machine

/-! ### Timers (45_timers.md): LD VX, DT; LD DT, VX; LD ST, VX -/

namespace Sys2Proof.Machine

/-- An encoding in the form XNN whose last byte is also fixed by the opcode, as the spec writes it. -/
theorem encodes_of_formatXNN_fixedByte {op x : Nibble} {nn : Byte} {i : Instr} {code : Nat}
    (hcode : op.toNat * 4096 + nn.toNat = code) (hd : decode (formatXNN op x nn) = .ok i) :
    Encodes (code + 256 * x.toNat) i := by
  have hword : (formatXNN op x nn).toNat = code + 256 * x.toNat := by
    rw [formatXNN_toNat, ← hcode, Nat.mul_comm 256, Nat.add_right_comm]
  exact encodes_of_toNat hword hd

/-- A word of group F goes to the group's own decoder with its function byte (30_encoding.md R75). -/
theorem decode_formatXNN_groupF (x : Nibble) (nn : Byte) : decode (formatXNN 0xF x nn) = decodeF nn x := by
  simp [decode]

theorem decodeF_ldVxDt (x : Nibble) : decodeF 0x07 x = .ok (.ldVxDt x) := rfl

theorem decodeF_ldDtVx (x : Nibble) : decodeF 0x15 x = .ok (.ldDtVx x) := rfl

theorem decodeF_ldStVx (x : Nibble) : decodeF 0x18 x = .ok (.ldStVx x) := rfl

/-- An instruction of group F is encoded as FX and its function byte. -/
theorem encodes_of_decodeF {x : Nibble} {nn : Byte} {i : Instr} {code : Nat}
    (hcode : (0xF : Nibble).toNat * 4096 + nn.toNat = code) (hd : decodeF nn x = .ok i) :
    Encodes (code + 256 * x.toNat) i :=
  encodes_of_formatXNN_fixedByte hcode ((decode_formatXNN_groupF x nn).trans hd)

theorem exec_ldVxDt (x : Nibble) (s : State) : exec (.ldVxDt x) s = .next (s.writeV x s.dt) := rfl

theorem exec_ldDtVx (x : Nibble) (s : State) : exec (.ldDtVx x) s = .next (s.writeDt (s.readV x)) := rfl

theorem exec_ldStVx (x : Nibble) (s : State) : exec (.ldStVx x) s = .next (s.writeSt (s.readV x)) := rfl

theorem State.audioPort_eq_true_iff (s : State) : s.audioPort = true ↔ s.st ≠ 0 := decide_eq_true_iff

theorem State.audioPort_eq_false_iff (s : State) : s.audioPort = false ↔ s.st = 0 := by
  rw [← Bool.not_eq_true, State.audioPort_eq_true_iff, not_not]

theorem countDown_one : countDown 1 = 0 := by decide

/-- Settles O48: LD VX, DT is one `writeV` of DT (45_timers.md R170), so its frame, DT included, is the frame of `writeV`. -/
theorem readDelayTimer : Obligations.ReadDelayTimer := by
  intro x s
  exact ⟨encodes_of_decodeF (by decide) (decodeF_ldVxDt x), _, exec_ldVxDt x s,
    s.readV_writeV_self x s.dt, writeV_changesOnly s x s.dt⟩

/-- Settles O49: LD DT, VX is one `writeDt` of VX (45_timers.md R171), so its frame is the frame of `writeDt`. -/
theorem setDelayTimer : Obligations.SetDelayTimer := by
  intro x s
  exact ⟨encodes_of_decodeF (by decide) (decodeF_ldDtVx x), _, exec_ldDtVx x s,
    s.writeDt_dt (s.readV x), writeDt_changesOnly s (s.readV x)⟩

/-- Settles O50: LD ST, VX is one `writeSt` of VX (45_timers.md R172), and the audio port reads nothing but ST
(60_exceptions.md R210), so it follows VX at once; a TICK counts ST = 1 down to 0. -/
theorem setSoundTimer : Obligations.SetSoundTimer := by
  intro x s
  refine ⟨encodes_of_decodeF (by decide) (decodeF_ldStVx x), _, exec_ldStVx x s,
    s.writeSt_st (s.readV x), ?portFollows, ?offAfterTick, writeSt_changesOnly s (s.readV x)⟩
  case portFollows => rw [State.audioPort_eq_true_iff, State.writeSt_st]
  case offAfterTick =>
    intro hone
    rw [State.audioPort_eq_false_iff, State.tick_st, State.writeSt_st, hone, countDown_one]

end Sys2Proof.Machine

/-! ### Index memory (46_index_memory.md): ADD I, VX; LD F, VX -/

namespace Sys2Proof.Machine

theorem decodeF_addIVx (x : Nibble) : decodeF 0x1E x = .ok (.addIVx x) := rfl

theorem decodeF_ldFVx (x : Nibble) : decodeF 0x29 x = .ok (.ldFVx x) := rfl

theorem exec_addIVx (x : Nibble) (s : State) :
    exec (.addIVx x) s = .next (s.writeI (addr (s.i.toNat + (s.readV x).toNat))) := rfl

theorem exec_ldFVx (x : Nibble) (s : State) : exec (.ldFVx x) s = .next (s.writeI (s.glyphAddr x)) := rfl

/-- The largest glyph address is 0x54B, so the formula of R181 needs no reduction. -/
@[simp] theorem State.glyphAddr_toNat (s : State) (x : Nibble) :
    (s.glyphAddr x).toNat = 0x050 + (s.readV x).toNat * 5 := by
  have hbyte : (s.readV x).toNat < 256 := (s.readV x).isLt
  rw [State.glyphAddr, BitVec.toNat_ofNat, Nat.mod_eq_of_lt (by omega)]

/-- Settles O37: each is one `writeI`, of the sum reduced to an address (R180) or of the glyph address (R181), so its frame,
VF included, is the frame of `writeI`. -/
theorem indexArithmetic : Obligations.IndexArithmetic := by
  intro x s
  refine ⟨encodes_of_decodeF (by decide) (decodeF_addIVx x), encodes_of_decodeF (by decide) (decodeF_ldFVx x),
    ⟨_, exec_addIVx x s, ?sum, writeI_changesOnly s _⟩, ⟨_, exec_ldFVx x s, ?glyph, writeI_changesOnly s _⟩⟩
  case sum => rw [State.writeI_i, addr_toNat]
  case glyph => rw [State.writeI_i, State.glyphAddr_toNat]

end Sys2Proof.Machine

/-! ### Host commands (60_exceptions.md): KEY -/

namespace Sys2Proof.Machine

theorem runCommand_key (k : Fin 16) (b : Bool) (s : State) : runCommand (.key k b) s = .next (s.setKey k b) := rfl

theorem State.setKey_keyDown_self (s : State) (k : Fin 16) (b : Bool) : (s.setKey k b).keyDown k = b := by
  rw [State.setKey_keyDown, if_pos rfl]

theorem State.setKey_keyDown_of_ne (s : State) {j k : Fin 16} (hjk : j ≠ k) (b : Bool) :
    (s.setKey k b).keyDown j = s.keyDown j := by
  rw [State.setKey_keyDown, if_neg hjk]

theorem setKey_changesOnly (s : State) (k : Fin 16) (b : Bool) : ChangesOnly (· = .key k) s (s.setKey k b) := by
  intro p hp
  cases p with
  | key j =>
    have hjk : j ≠ k := fun h => hp (congrArg Part.key h)
    exact s.setKey_keyDown_of_ne hjk b
  | _ => simp [Part.Agrees]

/-- Settles O53: KEY is one `setKey` (60_exceptions.md R212), halted or not, so its frame, the other keys included, is the
frame of `setKey`. -/
theorem keyCommandSetsOneKey : Obligations.KeyCommandSetsOneKey := by
  intro k b s
  exact ⟨_, runCommand_key k b s, s.setKey_keyDown_self k b, setKey_changesOnly s k b⟩

end Sys2Proof.Machine

/-! ### LOAD (70_reset_and_hazards.md) -/

namespace Sys2Proof.Machine

/-- The longest image is what 3584 bytes of R234 are: the room from 0x200 to the end of memory. -/
theorem maxProgram_eq : maxProgram = 3584 := rfl

theorem State.load_of_gt (s : State) {bytes : List Byte} (hlong : bytes.length > 3584) : s.load bytes = (s, .fail) := by
  rw [State.load, maxProgram_eq, if_pos hlong]

theorem State.load_of_le (s : State) {bytes : List Byte} (hfits : bytes.length ≤ 3584) :
    s.load bytes = (s.memWriteList 0x200 bytes, .ok) := by
  rw [State.load, maxProgram_eq, if_neg (Nat.not_lt.2 hfits)]

/-- A block of at most 4096 bytes overlaps itself nowhere, wrap included, so each of its bytes reads back as stored. -/
theorem State.memRead_memWriteList_offset {s : State} (hwf : Memory.wf (resetByte s.config) s.mem = true) (a : Nat)
    {bs : List Byte} (hlen : bs.length ≤ 4096) {k : Nat} (hk : k < bs.length) :
    (s.memWriteList a bs).memRead (a + k) = bs[k] := by
  rcases State.memRead_memWriteList hwf a bs hlen (a + k) with ⟨_, houtside⟩ | ⟨j, hj, hsame, hread⟩
  · exact absurd rfl (houtside k hk)
  · obtain rfl : j = k := by omega
    exact hread

/-- Byte `k` of an image that is not refused stands at 0x200 + k (R233). -/
theorem State.memRead_load {s : State} (hwf : Memory.wf (resetByte s.config) s.mem = true) {bytes : List Byte}
    (hfits : bytes.length ≤ 3584) {k : Nat} (hk : k < bytes.length) :
    (s.load bytes).1.memRead (0x200 + k) = bytes[k] := by
  rw [State.load_of_le s hfits]
  exact State.memRead_memWriteList_offset hwf 0x200 (by omega) hk

/-- Settles O54: LOAD has two answers, split at 3584 bytes (R234), and the image at the bound is one that is stored. -/
theorem loadRefusesAnOversizeImage : Obligations.LoadRefusesAnOversizeImage := by
  intro s bytes
  refine ⟨State.load_of_gt s, ?taken, ?stored⟩
  case taken =>
    intro hfits
    rw [State.load_of_le s hfits]
  case stored =>
    intro hfull hwf k hk
    exact State.memRead_load hwf hfull.le hk

end Sys2Proof.Machine

/-! ### Encoding (30_encoding.md): the decoder, the encoder and the opcode map -/

namespace Sys2Proof

/-- A word of group 0 is SYS unless CLS or RET takes it, and those are the operands `WellFormed` leaves out (R76). -/
theorem decode_formatANNN_sys {nnn : Addr} (hwf : (Instr.sys nnn).WellFormed = true) :
    decode (formatANNN 0x0#4 nnn) = .ok (.sys nnn) := by
  obtain ⟨hcls, hret⟩ : nnn ≠ 0x0E0#12 ∧ nnn ≠ 0x0EE#12 := by
    simpa [Instr.WellFormed, Instr.sysOperandOk] using hwf
  have hne : ∀ m : Addr, nnn ≠ m → formatANNN 0x0#4 nnn ≠ formatANNN 0x0#4 m := fun m hm heq =>
    hm (by simpa using congrArg fieldNNN heq)
  have hnotCls : formatANNN 0x0#4 nnn ≠ 0x00E0#16 := hne 0x0E0#12 hcls
  have hnotRet : formatANNN 0x0#4 nnn ≠ 0x00EE#16 := hne 0x0EE#12 hret
  simp [decode, decode0, hnotCls, hnotRet]

/-- Only SYS needs its check; in every other format the fields the decoder dispatches on read back as the encoder wrote them. -/
theorem decode_encode {i : Instr} (hwf : i.WellFormed = true) : decode (encode i) = .ok i := by
  cases i with
  | sys nnn => exact decode_formatANNN_sys hwf
  | cls => decide
  | ret => decide
  | _ => simp [encode, decode, decode8, decodeE, decodeF]

theorem decodeBytes_encodeBytes {i : Instr} (hwf : i.WellFormed = true) (rest : List Byte) :
    decodeBytes (encodeBytes i ++ rest) = .ok (i, rest) := by
  simp [encodeBytes, decodeBytes, decode_encode hwf]

/-- Settles O2: the decoder reads back the fields the encoder wrote, and the two bytes in memory join to the word. -/
theorem decodeOfEncodeIsTheInstruction : Obligations.DecodeOfEncodeIsTheInstruction :=
  fun _ hwf => ⟨decode_encode hwf, decodeBytes_encodeBytes hwf⟩

/-! ### From a word to its instruction and back, group by group (R75) -/

section
variable {w : Word} {i : Instr} {op n : Nibble} {nn : Byte}

theorem formatANNN_of_op (hop : fieldOp w = op) : formatANNN op (fieldNNN w) = w :=
  hop ▸ formatANNN_fields w

theorem formatXNN_of_op (hop : fieldOp w = op) : formatXNN op (fieldX w) (fieldNN w) = w :=
  hop ▸ formatXNN_fields w

theorem formatXYN_of_op (hop : fieldOp w = op) : formatXYN op (fieldX w) (fieldY w) (fieldN w) = w :=
  hop ▸ formatXYN_fields w

theorem formatXNN_of_op_byte (hop : fieldOp w = op) (hnn : fieldNN w = nn) : formatXNN op (fieldX w) nn = w :=
  hnn ▸ formatXNN_of_op hop

theorem formatXYN_of_op_nibble (hop : fieldOp w = op) (hn : fieldN w = n) :
    formatXYN op (fieldX w) (fieldY w) n = w :=
  hn ▸ formatXYN_of_op hop

theorem encode_decode0 (hop : fieldOp w = 0x0#4) : (decode0 w).WellFormed = true ∧ encode (decode0 w) = w := by
  unfold decode0
  split_ifs with hcls hret
  · exact ⟨rfl, hcls.symm⟩
  · exact ⟨rfl, hret.symm⟩
  · have hword : formatANNN 0x0#4 (fieldNNN w) = w := formatANNN_of_op hop
    have hnotCls : fieldNNN w ≠ 0x0E0#12 := fun h => hcls (by rw [← hword, h]; rfl)
    have hnotRet : fieldNNN w ≠ 0x0EE#12 := fun h => hret (by rw [← hword, h]; rfl)
    exact ⟨by simp [Instr.WellFormed, Instr.sysOperandOk, hnotCls, hnotRet], hword⟩

theorem encode_of_decode8 (hop : fieldOp w = 0x8#4) (h : decode8 (fieldN w) (fieldX w) (fieldY w) = .ok i) :
    i.WellFormed = true ∧ encode i = w := by
  rcases decode8_ok h with ⟨hn, rfl⟩ | ⟨hn, rfl⟩ | ⟨hn, rfl⟩ | ⟨hn, rfl⟩ | ⟨hn, rfl⟩ | ⟨hn, rfl⟩ | ⟨hn, rfl⟩ |
    ⟨hn, rfl⟩ | ⟨hn, rfl⟩ <;> exact ⟨rfl, formatXYN_of_op_nibble hop hn⟩

theorem encode_of_decodeE (hop : fieldOp w = 0xE#4) (h : decodeE (fieldNN w) (fieldX w) = .ok i) :
    i.WellFormed = true ∧ encode i = w := by
  rcases decodeE_ok h with ⟨hnn, rfl⟩ | ⟨hnn, rfl⟩ <;> exact ⟨rfl, formatXNN_of_op_byte hop hnn⟩

theorem encode_of_decodeF (hop : fieldOp w = 0xF#4) (h : decodeF (fieldNN w) (fieldX w) = .ok i) :
    i.WellFormed = true ∧ encode i = w := by
  rcases decodeF_ok h with ⟨hnn, rfl⟩ | ⟨hnn, rfl⟩ | ⟨hnn, rfl⟩ | ⟨hnn, rfl⟩ | ⟨hnn, rfl⟩ | ⟨hnn, rfl⟩ | ⟨hnn, rfl⟩ |
    ⟨hnn, rfl⟩ | ⟨hnn, rfl⟩ <;> exact ⟨rfl, formatXNN_of_op_byte hop hnn⟩

/-- The sixteenth value of a nibble, which the decoder's last arm takes without naming it. -/
theorem nibble_eq_F {f : Nibble} (h : ∀ k < 15, f ≠ BitVec.ofNat 4 k) : f = 0xF#4 := by
  by_contra hF
  have hne : f.toNat ≠ 15 := fun h15 => hF (BitVec.eq_of_toNat_eq h15)
  exact h f.toNat (by omega) (by simp)

/-- One line per primary opcode: the formats of its group give the word back. -/
theorem encode_of_decode (h : decode w = .ok i) : i.WellFormed = true ∧ encode i = w := by
  unfold decode at h
  split at h
  next hop => cases h; exact encode_decode0 hop
  next hop => cases h; exact ⟨rfl, formatANNN_of_op hop⟩
  next hop => cases h; exact ⟨rfl, formatANNN_of_op hop⟩
  next hop => cases h; exact ⟨rfl, formatXNN_of_op hop⟩
  next hop => cases h; exact ⟨rfl, formatXNN_of_op hop⟩
  next hop =>
    split_ifs at h with hn
    cases h; exact ⟨rfl, formatXYN_of_op_nibble hop hn⟩
  next hop => cases h; exact ⟨rfl, formatXNN_of_op hop⟩
  next hop => cases h; exact ⟨rfl, formatXNN_of_op hop⟩
  next hop => exact encode_of_decode8 hop h
  next hop =>
    split_ifs at h with hn
    cases h; exact ⟨rfl, formatXYN_of_op_nibble hop hn⟩
  next hop => cases h; exact ⟨rfl, formatANNN_of_op hop⟩
  next hop => cases h; exact ⟨rfl, formatANNN_of_op hop⟩
  next hop => cases h; exact ⟨rfl, formatXNN_of_op hop⟩
  next hop => cases h; exact ⟨rfl, formatXYN_of_op hop⟩
  next hop => exact encode_of_decodeE hop h
  next =>
    have hop : fieldOp w = 0xF#4 := nibble_eq_F fun k hk => by interval_cases k <;> assumption
    exact encode_of_decodeF hop h

end

/-- Settles O3: each group's word is made of the fields its instruction keeps and of digits the group fixes. -/
theorem encodeOfDecodeIsTheWord : Obligations.EncodeOfDecodeIsTheWord :=
  fun _ _ h => encode_of_decode h

/-! ### The unrecognized words (R77) -/

theorem decode8_error_iff (f x y : Nibble) :
    (∃ r, decode8 f x y = .error r) ↔ f.toNat ∈ [0x8, 0x9, 0xA, 0xB, 0xC, 0xD, 0xF] := by
  unfold decode8
  split
  case h_10 =>
    simp_all [← BitVec.toNat_inj]
    omega
  all_goals simp

theorem decodeE_error_iff (ff : Byte) (x : Nibble) : (∃ r, decodeE ff x = .error r) ↔ ff.toNat ∉ [0x9E, 0xA1] := by
  unfold decodeE
  split
  case h_3 => simp_all [← BitVec.toNat_inj]
  all_goals simp

theorem decodeF_error_iff (ff : Byte) (x : Nibble) :
    (∃ r, decodeF ff x = .error r) ↔ ff.toNat ∉ [0x07, 0x0A, 0x15, 0x18, 0x1E, 0x29, 0x33, 0x55, 0x65] := by
  unfold decodeF
  split
  case h_10 => simp_all [← BitVec.toNat_inj]
  all_goals simp

/-- Groups 5 and 9 have one instruction each, whose function nibble is 0 (D16). -/
theorem ite_error_iff {f : Nibble} {i : Instr} {e : DecodeReject} :
    (∃ r, (if f = 0x0#4 then .ok i else .error e : Except DecodeReject Instr) = .error r) ↔ f.toNat ≠ 0 := by
  split_ifs with hf
  · simp [hf]
  · simpa [← BitVec.toNat_inj] using hf

/-- Only the groups 5, 8, 9, E and F reject a word, each by its own function nibble or byte. -/
theorem decode_error_iff (w : Word) : (∃ r, decode w = .error r) ↔
    ((fieldOp w).toNat = 0x5 ∧ (fieldN w).toNat ≠ 0) ∨ ((fieldOp w).toNat = 0x9 ∧ (fieldN w).toNat ≠ 0) ∨
    ((fieldOp w).toNat = 0x8 ∧ (fieldN w).toNat ∈ [0x8, 0x9, 0xA, 0xB, 0xC, 0xD, 0xF]) ∨
    ((fieldOp w).toNat = 0xE ∧ (fieldNN w).toNat ∉ [0x9E, 0xA1]) ∨
    ((fieldOp w).toNat = 0xF ∧ (fieldNN w).toNat ∉ [0x07, 0x0A, 0x15, 0x18, 0x1E, 0x29, 0x33, 0x55, 0x65]) := by
  unfold decode
  split
  case h_6 hop => rw [ite_error_iff, hop]; simp      -- group 5
  case h_9 hop => rw [decode8_error_iff, hop]; simp  -- group 8
  case h_10 hop => rw [ite_error_iff, hop]; simp     -- group 9
  case h_15 hop => rw [decodeE_error_iff, hop]; simp -- group E
  case h_16 =>                                       -- group F, the arm without a name
    have hop : fieldOp w = 0xF#4 := nibble_eq_F fun k hk => by interval_cases k <;> assumption
    rw [decodeF_error_iff, hop]; simp
  all_goals next hop => simp [hop]

/-- Settles O5: what the decoder rejects, with the fields written as numbers. -/
theorem unrecognizedWordsAreTheFiveSets : Obligations.UnrecognizedWordsAreTheFiveSets := by
  intro w
  rw [← fieldOp_toNat, ← fieldN_toNat, ← fieldNN_toNat]
  exact decode_error_iff w

/-! ### The opcode map (R76) -/

theorem Instr.row_mem_opcodeRows (i : Instr) : i.row ∈ opcodeRows := by
  cases i <;> simp [Instr.row, Instr.rowNumber, opcodeRows]

theorem Instr.eq_cls_or_ret_of_mask {i : Instr} (h : i.row.mask = 0xFFFF) : i = .cls ∨ i = .ret := by
  cases i <;> simp_all [Instr.row, Instr.rowNumber, opcodeRows]

theorem row_selects_encode : ∀ i : Instr, Laws.RowMatch.Statement i
  | .sys nnn => Laws.RowMatch.sys nnn
  | .cls => Laws.RowMatch.cls
  | .ret => Laws.RowMatch.ret
  | .jp nnn => Laws.RowMatch.jp nnn
  | .call nnn => Laws.RowMatch.call nnn
  | .seImm x nn => Laws.RowMatch.seImm x nn
  | .sneImm x nn => Laws.RowMatch.sneImm x nn
  | .seReg x y => Laws.RowMatch.seReg x y
  | .ldImm x nn => Laws.RowMatch.ldImm x nn
  | .addImm x nn => Laws.RowMatch.addImm x nn
  | .ldReg x y => Laws.RowMatch.ldReg x y
  | .orReg x y => Laws.RowMatch.orReg x y
  | .andReg x y => Laws.RowMatch.andReg x y
  | .xorReg x y => Laws.RowMatch.xorReg x y
  | .addReg x y => Laws.RowMatch.addReg x y
  | .sub x y => Laws.RowMatch.sub x y
  | .shr x y => Laws.RowMatch.shr x y
  | .subn x y => Laws.RowMatch.subn x y
  | .shl x y => Laws.RowMatch.shl x y
  | .sneReg x y => Laws.RowMatch.sneReg x y
  | .ldI nnn => Laws.RowMatch.ldI nnn
  | .jpV0 nnn => Laws.RowMatch.jpV0 nnn
  | .rnd x nn => Laws.RowMatch.rnd x nn
  | .drw x y n => Laws.RowMatch.drw x y n
  | .skp x => Laws.RowMatch.skp x
  | .sknp x => Laws.RowMatch.sknp x
  | .ldVxDt x => Laws.RowMatch.ldVxDt x
  | .ldVxK x => Laws.RowMatch.ldVxK x
  | .ldDtVx x => Laws.RowMatch.ldDtVx x
  | .ldStVx x => Laws.RowMatch.ldStVx x
  | .addIVx x => Laws.RowMatch.addIVx x
  | .ldFVx x => Laws.RowMatch.ldFVx x
  | .ldBVx x => Laws.RowMatch.ldBVx x
  | .ldMemVx x => Laws.RowMatch.ldMemVx x
  | .ldVxMem x => Laws.RowMatch.ldVxMem x

theorem row_selects_of_decode {w : Word} {i : Instr} (h : decode w = .ok i) : i.row.selects w = true := by
  obtain ⟨hwf, rfl⟩ := encode_of_decode h
  exact row_selects_encode i hwf

/-- The fields a row fixes: the primary opcode, and the function nibble, the function byte or the whole word where its mask
covers them. -/
theorem OpcodeRow.fields_of_selects {r : OpcodeRow} {w : Word} (hr : r ∈ opcodeRows) (hsel : r.selects w = true) :
    fieldOp w = fieldOp r.matchBits ∧ (r.mask = 0xF00F → fieldN w = fieldN r.matchBits) ∧
    (r.mask = 0xF0FF → fieldNN w = fieldNN r.matchBits) ∧ (r.mask = 0xFFFF → w = r.matchBits) := by
  have hmasks : ∀ r ∈ opcodeRows, r.mask = 0xF000 ∨ r.mask = 0xF00F ∨ r.mask = 0xF0FF ∨ r.mask = 0xFFFF := by decide
  have heq : w &&& r.mask = r.matchBits := beq_iff_eq.1 hsel
  rw [← heq]
  rcases hmasks r hr with h | h | h | h <;> rw [h]
  · simp [and_mask_F000]
  · simp [and_mask_F00F]
  · simp [and_mask_F0FF]
  · simp [and_mask_FFFF]

/-- The groups that dispatch further have rows that fix the key they dispatch on, and each row's match column decodes. -/
theorem opcodeRows_fix_the_key : ∀ r ∈ opcodeRows,
    ((fieldOp r.matchBits).toNat ∈ [0x5, 0x8, 0x9] → r.mask = 0xF00F) ∧
    ((fieldOp r.matchBits).toNat ∈ [0xE, 0xF] → r.mask = 0xF0FF) ∧
    (decode r.matchBits).isOk = true := by decide

/-- A word that a row selects is recognized: were it not, neither would be the row's match column, which agrees with it in
every field the decoder dispatches on. -/
theorem exists_decode_of_selects {r : OpcodeRow} {w : Word} (hr : r ∈ opcodeRows) (hsel : r.selects w = true) :
    ∃ i, decode w = .ok i := by
  obtain ⟨hop, hN, hNN, -⟩ := OpcodeRow.fields_of_selects hr hsel
  obtain ⟨hnibble, hbyte, hok⟩ := opcodeRows_fix_the_key r hr
  rcases hd : decode w with e | i
  · have herr := (decode_error_iff w).1 ⟨e, hd⟩
    rw [hop] at herr
    have hmatch : ∃ e, decode r.matchBits = .error e := by
      rw [decode_error_iff]
      rcases herr with ⟨h, hkey⟩ | ⟨h, hkey⟩ | ⟨h, hkey⟩ | ⟨h, hkey⟩ | ⟨h, hkey⟩
      · rw [hN (hnibble (by simp [h]))] at hkey; simp [h, hkey]
      · rw [hN (hnibble (by simp [h]))] at hkey; simp [h, hkey]
      · rw [hN (hnibble (by simp [h]))] at hkey; simp [h, hkey]
      · rw [hNN (hbyte (by simp [h]))] at hkey; simp [h, hkey]
      · rw [hNN (hbyte (by simp [h]))] at hkey; simp [h, hkey]
    obtain ⟨e', he'⟩ := hmatch
    simp [he', Except.isOk, Except.toBool] at hok
  · exact ⟨i, rfl⟩

/-- Two rows that agree on the bits both masks cover are one row, or one of them is CLS's or RET's. -/
theorem opcodeRows_disjoint : ∀ r ∈ opcodeRows, ∀ r' ∈ opcodeRows,
    r.matchBits &&& r'.mask = r'.matchBits &&& r.mask → r = r' ∨ r.mask = 0xFFFF ∨ r'.mask = 0xFFFF := by decide

theorem OpcodeRow.eq_of_selects {r r' : OpcodeRow} {w : Word} (hr : r ∈ opcodeRows) (hr' : r' ∈ opcodeRows)
    (h : r.selects w = true) (h' : r'.selects w = true) : r = r' ∨ r.mask = 0xFFFF ∨ r'.mask = 0xFFFF := by
  refine opcodeRows_disjoint r hr r' hr' ?_
  rw [← beq_iff_eq.1 h, ← beq_iff_eq.1 h', BitVec.and_assoc, BitVec.and_assoc, BitVec.and_comm r.mask]

/-- The rows that select the words of CLS and RET: their own, and SYS's (D15). -/
theorem eq_sys_row_of_selects : ∀ r ∈ opcodeRows, r.mask ≠ 0xFFFF →
    (r.selects 0x00E0 = true ∨ r.selects 0x00EE = true) → r = ⟨0xF000, 0x0000⟩ := by decide

theorem eq_cls_or_ret_row_of_mask : ∀ r ∈ opcodeRows, r.mask = 0xFFFF → r = Instr.cls.row ∨ r = Instr.ret.row := by decide

theorem decode_of_selects {r : OpcodeRow} {w : Word} (hr : r ∈ opcodeRows) (hsel : r.selects w = true) :
    ∃ i, decode w = .ok i ∧
      (i.row = r ∨ (r = ⟨0xF000, 0x0000⟩ ∧ (i = .cls ∧ w = 0x00E0 ∨ i = .ret ∧ w = 0x00EE))) := by
  by_cases hmask : r.mask = 0xFFFF
  · have hw : w = r.matchBits := (OpcodeRow.fields_of_selects hr hsel).2.2.2 hmask
    rcases eq_cls_or_ret_row_of_mask r hr hmask with rfl | rfl
    · exact ⟨.cls, hw ▸ by decide, .inl rfl⟩
    · exact ⟨.ret, hw ▸ by decide, .inl rfl⟩
  · obtain ⟨i, hd⟩ := exists_decode_of_selects hr hsel
    refine ⟨i, hd, ?_⟩
    rcases OpcodeRow.eq_of_selects i.row_mem_opcodeRows hr (row_selects_of_decode hd) hsel with h | h | h
    · exact .inl h
    · obtain ⟨-, rfl⟩ := encode_of_decode hd
      rcases Instr.eq_cls_or_ret_of_mask h with rfl | rfl
      · exact .inr ⟨eq_sys_row_of_selects r hr hmask (.inl hsel), .inl ⟨rfl, rfl⟩⟩
      · exact .inr ⟨eq_sys_row_of_selects r hr hmask (.inr hsel), .inr ⟨rfl, rfl⟩⟩
    · exact absurd h hmask

/-- Settles O4: a word that a row selects is recognized, and the rows are disjoint but for the words of CLS and RET. -/
theorem decoderIsTheOpcodeMap : Obligations.DecoderIsTheOpcodeMap :=
  ⟨rfl, fun _ _ hr hsel => decode_of_selects hr hsel,
    fun _ i hd => ⟨i.row_mem_opcodeRows, row_selects_of_decode hd⟩⟩

/-- Settles O1: each word evaluated by the decoder. -/
theorem writtenOutWordsDecode : Obligations.WrittenOutWordsDecode := by
  unfold Obligations.WrittenOutWordsDecode Machine.Encodes
  decide

end Sys2Proof

/-! ### Control flow (40_flow.md, 42_index_jump_random.md): SYS, JP V0, the skips, CALL and RET -/

namespace Sys2Proof.Machine

theorem exec_sys (nnn : Addr) (s : State) : exec (.sys nnn) s = .next s := rfl

theorem exec_jpV0 (nnn : Addr) (s : State) : exec (.jpV0 nnn) s = .next (s.setPc (s.offsetTarget nnn)) := rfl

theorem exec_seImm (x : Nibble) (nn : Byte) (s : State) :
    exec (.seImm x nn) s = .next (s.skipIf (decide (s.readV x = nn))) := rfl

theorem exec_sneImm (x : Nibble) (nn : Byte) (s : State) :
    exec (.sneImm x nn) s = .next (s.skipIf (decide (s.readV x ≠ nn))) := rfl

theorem exec_seReg (x y : Nibble) (s : State) :
    exec (.seReg x y) s = .next (s.skipIf (decide (s.readV x = s.readV y))) := rfl

theorem exec_sneReg (x y : Nibble) (s : State) :
    exec (.sneReg x y) s = .next (s.skipIf (decide (s.readV x ≠ s.readV y))) := rfl

/-- Settles O21: the meaning of SYS is the state it is given (40_flow.md R100). -/
theorem sysIsANoOp : Obligations.SysIsANoOp := by
  intro nnn s
  refine ⟨fun hwf => encodes_of_toNat (w := formatANNN 0x0 nnn) ?number (decode_formatANNN_sys hwf), exec_sys nnn s⟩
  case number => simp [formatANNN_toNat]

theorem decode_formatANNN_jpV0 (nnn : Addr) : decode (formatANNN 0xB nnn) = .ok (.jpV0 nnn) := by
  simp [decode]

/-- Settles O23: one `setPc`, to the sum reduced to an address (42_index_jump_random.md R141). -/
theorem jpV0AddsV0 : Obligations.JpV0AddsV0 := by
  intro nnn s
  have hword : (formatANNN 0xB nnn).toNat = 0xB000 + nnn.toNat := formatANNN_toNat 0xB nnn
  have htarget : (s.offsetTarget nnn).toNat = ((s.readV 0).toNat + nnn.toNat) % 4096 := addr_toNat _
  exact ⟨encodes_of_toNat hword (decode_formatANNN_jpV0 nnn), _, exec_jpV0 nnn s, htarget, setPc_changesOnly s _⟩

theorem advancePc_changesOnly (s : State) : ChangesOnly (· = .pc) s s.advancePc := setPc_changesOnly s _

/-! #### Skips -/

theorem skipIf_changesOnly (s : State) (c : Bool) : ChangesOnly (· = .pc) s (s.skipIf c) := by
  rw [State.skipIf_eq]
  exact setPc_changesOnly s _

/-- What a skip on a condition does, in the form the skip statements have: the condition as a proposition. -/
theorem skipIf_spec (s : State) {c : Bool} {taken : Prop} (hc : taken ↔ c = true) :
    (taken → (s.skipIf c).pc.toNat = (s.pc.toNat + 2) % 4096) ∧ (¬ taken → s.skipIf c = s) ∧
    ChangesOnly (· = .pc) s (s.skipIf c) := by
  refine ⟨fun h => ?_, fun h => ?_, skipIf_changesOnly s c⟩
  · rw [hc.1 h]
    exact addr_toNat _
  · rw [Bool.eq_false_iff.2 fun hcond => h (hc.2 hcond)]
    rfl

/-- Settles O27: each of the four is one `skipIf` of its comparison. -/
theorem skipsCompareAndSkip : Obligations.SkipsCompareAndSkip := by
  rintro x y nn s i taken (⟨rfl, h⟩ | ⟨rfl, h⟩ | ⟨rfl, h⟩ | ⟨rfl, h⟩)
  · exact ⟨_, exec_seImm x nn s, skipIf_spec s (by rw [h, decide_eq_true_iff])⟩
  · exact ⟨_, exec_sneImm x nn s, skipIf_spec s (by rw [h, decide_eq_true_iff])⟩
  · exact ⟨_, exec_seReg x y s, skipIf_spec s (by rw [h, decide_eq_true_iff])⟩
  · exact ⟨_, exec_sneReg x y s, skipIf_spec s (by rw [h, decide_eq_true_iff])⟩

/-! #### The call stack -/

/-- The state after a push onto a stack with room. -/
def State.pushed (s : State) (a : Word) (h : s.sp.val < 16) : State :=
  { s with stack := s.stack.set s.sp.val a, sp := ⟨s.sp.val + 1, by omega⟩ }

/-- The state after a pop from a stack that is not empty. -/
def State.popped (s : State) : State := { s with sp := ⟨s.sp.val - 1, by omega⟩ }

theorem State.push_of_lt {s : State} (h : s.sp.val < 16) (a : Word) : s.push a = some (s.pushed a h) := by
  simp [State.push, State.pushed, h]

theorem State.push_of_full {s : State} (h : s.sp.val = 16) (a : Word) : s.push a = none := by
  simp [State.push, h]

theorem State.pop_of_pos {s : State} (h : 0 < s.sp.val) : s.pop = some (s.popped, s.stack[s.sp.val - 1]) := by
  simp [State.pop, State.popped, h]

theorem State.pop_of_empty {s : State} (h : s.sp.val = 0) : s.pop = none := by
  simp [State.pop, h]

theorem exec_call_of_lt (nnn : Addr) {s : State} (h : s.sp.val < 16) :
    exec (.call nnn) s = .next ((s.pushed s.pc h).setPc (addrOperand nnn)) := by
  simp [exec, execCall, State.push_of_lt h]

theorem exec_call_of_full (nnn : Addr) {s : State} (h : s.sp.val = 16) :
    exec (.call nnn) s = .next (s.takeFault .stackOverflow) := by
  simp [exec, execCall, State.push_of_full h]

theorem exec_ret_of_pos {s : State} (h : 0 < s.sp.val) :
    exec .ret s = .next (s.popped.setPc s.stack[s.sp.val - 1]) := by
  simp [exec, execRet, State.pop_of_pos h]

theorem exec_ret_of_empty {s : State} (h : s.sp.val = 0) : exec .ret s = .next (s.takeFault .stackUnderflow) := by
  simp [exec, execRet, State.pop_of_empty h]

theorem pushed_changesOnly (s : State) (a : Word) (h : s.sp.val < 16) :
    ChangesOnly (· ∈ [.sp, .stackEntry ⟨s.sp.val, h⟩]) s (s.pushed a h) := by
  intro p hp
  cases p with
  | stackEntry k =>
    have hk : s.sp.val ≠ k.val := fun heq => hp (by simp [heq])
    exact Vector.getElem_set_ne h k.isLt hk
  | sp => exact absurd (by simp) hp
  | _ => simp [Part.Agrees, State.pushed, State.readV, State.memRead, State.keyDown]

theorem popped_changesOnly (s : State) : ChangesOnly (· = .sp) s s.popped := by
  intro p hp
  cases p <;> simp_all [Part.Agrees, State.popped, State.readV, State.memRead, State.keyDown]

theorem decode_formatANNN_call (nnn : Addr) : decode (formatANNN 0x2 nnn) = .ok (.call nnn) := by
  simp [decode]

theorem call_changesOnly (s : State) (a b : Word) (h : s.sp.val < 16) :
    ChangesOnly (· ∈ [.pc, .sp, .stackEntry ⟨s.sp.val, h⟩]) s ((s.pushed a h).setPc b) :=
  ((pushed_changesOnly s a h).mono (by simp +contextual)).trans ((setPc_changesOnly _ b).mono (by simp +contextual))

theorem ret_changesOnly (s : State) (b : Word) : ChangesOnly (· ∈ [.pc, .sp]) s (s.popped.setPc b) :=
  ((popped_changesOnly s).mono (by simp +contextual)).trans ((setPc_changesOnly _ b).mono (by simp +contextual))

/-- Settles O24: with room CALL is a push of pc and a `setPc` (40_flow.md R104). -/
theorem callPushesTheReturnAddress : Obligations.CallPushesTheReturnAddress := by
  intro nnn s h
  have hword : (formatANNN 0x2 nnn).toNat = 0x2000 + nnn.toNat := formatANNN_toNat 0x2 nnn
  have hentry : (s.stack.set s.sp.val s.pc)[s.sp.val] = s.pc := Vector.getElem_set_self _
  exact ⟨encodes_of_toNat hword (decode_formatANNN_call nnn), _, exec_call_of_lt nnn h, hentry, rfl,
    addrOperand_toNat nnn, call_changesOnly s _ _ h⟩

/-- Settles O25: with an entry RET is a pop and a `setPc` to what was popped (40_flow.md R102). -/
theorem retPopsTheReturnAddress : Obligations.RetPopsTheReturnAddress := by
  intro s h
  exact ⟨encodes_of_toNat (w := encode .ret) rfl (decode_encode rfl), _, exec_ret_of_pos h, rfl, rfl, ret_changesOnly s _⟩

/-- A part that was moved and put back drops out of a frame. -/
theorem ChangesOnly.of_restored {P Q : Part → Prop} {s t : State} (h : ChangesOnly Q s t)
    (hrestored : ∀ p, Q p → ¬ P p → p.Agrees s t) : ChangesOnly P s t := by
  intro p hp
  by_cases hq : Q p
  · exact hrestored p hq hp
  · exact h p hq

/-- Settles O26: the pop reads the entry the push wrote, so pc and sp are put back and only the entry is left to differ. -/
theorem callThenRetComesBack : Obligations.CallThenRetComesBack := by
  intro nnn s t h hcall
  obtain rfl : (s.pushed s.pc h).setPc (addrOperand nnn) = t := by simpa [exec_call_of_lt nnn h] using hcall
  set t := (s.pushed s.pc h).setPc (addrOperand nnn)
  have hentry : t.advancePc.stack[t.advancePc.sp.val - 1] = s.pc := Vector.getElem_set_self h
  have hpos : 0 < t.advancePc.sp.val := Nat.succ_pos s.sp.val
  refine ⟨_, exec_ret_of_pos hpos, hentry, rfl, ?frame⟩
  case frame =>
    have hcalled := (call_changesOnly s s.pc (addrOperand nnn) h).trans
      ((advancePc_changesOnly t).mono (by simp +contextual))
    refine (hcalled.trans ((ret_changesOnly t.advancePc _).mono (by simp +contextual))).of_restored fun p hp hkept => ?_
    obtain rfl | rfl : p = .pc ∨ p = .sp := by simpa [hkept] using hp
    · exact hentry
    · rfl

end Sys2Proof.Machine

/-! ### Arithmetic and logic (41_alu.md): the instructions that write a result and a flag -/

namespace Sys2Proof.Machine

theorem exec_orReg (x y : Nibble) (s : State) :
    exec (.orReg x y) s = .next (s.writeLogic x (s.readV x ||| s.readV y)) := rfl

theorem exec_andReg (x y : Nibble) (s : State) :
    exec (.andReg x y) s = .next (s.writeLogic x (s.readV x &&& s.readV y)) := rfl

theorem exec_xorReg (x y : Nibble) (s : State) :
    exec (.xorReg x y) s = .next (s.writeLogic x (s.readV x ^^^ s.readV y)) := rfl

theorem exec_addReg (x y : Nibble) (s : State) : exec (.addReg x y) s =
    .next (s.writeResultFlag x (s.readV x + s.readV y) (carryFlag (s.readV x) (s.readV y))) := rfl

theorem exec_sub (x y : Nibble) (s : State) : exec (.sub x y) s =
    .next (s.writeResultFlag x (s.readV x - s.readV y) (noBorrowFlag (s.readV x) (s.readV y))) := rfl

theorem exec_subn (x y : Nibble) (s : State) : exec (.subn x y) s =
    .next (s.writeResultFlag x (s.readV y - s.readV x) (noBorrowFlag (s.readV y) (s.readV x))) := rfl

theorem exec_shr (x y : Nibble) (s : State) : exec (.shr x y) s =
    .next (s.writeResultFlag x (s.shiftSource x y >>> 1) (shiftedOutRight (s.shiftSource x y))) := rfl

theorem exec_shl (x y : Nibble) (s : State) : exec (.shl x y) s =
    .next (s.writeResultFlag x (s.shiftSource x y <<< 1) (shiftedOutLeft (s.shiftSource x y))) := rfl

/-! #### Logic: the mode decides whether VF is cleared -/

theorem State.writeLogic_cosmac {s : State} (h : s.config.compatMode = .cosmac) (x : Nibble) (r : Byte) :
    s.writeLogic x r = s.writeResultFlag x r 0 := by
  simp [State.writeLogic, h]

theorem State.writeLogic_chip48 {s : State} (h : s.config.compatMode = .chip48) (x : Nibble) (r : Byte) :
    s.writeLogic x r = s.writeV x r := by
  simp [State.writeLogic, h]

/-- The result stands in V[X] unless the clearing of VF falls on V[X] itself (R120, D12). -/
theorem State.readV_writeLogic (s : State) {x : Nibble} (h : x ≠ vf ∨ s.config.compatMode = .chip48) (r : Byte) :
    (s.writeLogic x r).readV x = r := by
  cases hm : s.config.compatMode with
  | cosmac =>
    have hx : x ≠ vf := by simpa [hm] using h
    rw [State.writeLogic_cosmac hm, State.readV_writeResultFlag, if_neg hx, if_pos rfl]
  | chip48 => rw [State.writeLogic_chip48 hm, State.readV_writeV_self]

/-- What a logical result does in each mode, whatever the operation. -/
theorem writeLogic_spec (s : State) (x : Nibble) (r : Byte) :
    (s.config.compatMode = .cosmac →
      (s.writeLogic x r).readV vf = 0 ∧ ChangesOnly (· ∈ [.v x, .v vf]) s (s.writeLogic x r)) ∧
    (s.config.compatMode = .chip48 → ChangesOnly (· = .v x) s (s.writeLogic x r)) := by
  refine ⟨fun hm => ?_, fun hm => ?_⟩
  · rw [State.writeLogic_cosmac hm, State.readV_writeResultFlag, if_pos rfl]
    exact ⟨rfl, writeResultFlag_changesOnly s x r 0⟩
  · rw [State.writeLogic_chip48 hm]
    exact writeV_changesOnly s x r

/-- The same with the result's bits, in the form the logic statement has. -/
theorem writeLogic_bits_spec (s : State) (x : Nibble) (r : Byte) {bit : Nat → Bool} (hbit : ∀ k, k < 8 → r.getLsbD k = bit k) :
    (s.config.compatMode = .cosmac →
      (s.writeLogic x r).readV vf = 0 ∧ ChangesOnly (· ∈ [.v x, .v vf]) s (s.writeLogic x r)) ∧
    (s.config.compatMode = .chip48 → ChangesOnly (· = .v x) s (s.writeLogic x r)) ∧
    (x ≠ vf ∨ s.config.compatMode = .chip48 → ∀ k, k < 8 → ((s.writeLogic x r).readV x).getLsbD k = bit k) := by
  obtain ⟨hcosmac, hchip48⟩ := writeLogic_spec s x r
  exact ⟨hcosmac, hchip48, fun h k hk => by rw [State.readV_writeLogic s h, hbit k hk]⟩

/-- Settles O30: each of the three is one `writeLogic` of its operation, taken bit by bit (R124 to R126). -/
theorem logicClearsVfOnlyInCosmac : Obligations.LogicClearsVfOnlyInCosmac := by
  rintro x y s i op (⟨rfl, rfl⟩ | ⟨rfl, rfl⟩ | ⟨rfl, rfl⟩)
  · exact ⟨_, exec_orReg x y s, writeLogic_bits_spec s x _ fun _ _ => BitVec.getLsbD_or⟩
  · exact ⟨_, exec_andReg x y s, writeLogic_bits_spec s x _ fun _ _ => BitVec.getLsbD_and⟩
  · exact ⟨_, exec_xorReg x y s, writeLogic_bits_spec s x _ fun _ _ => BitVec.getLsbD_xor⟩

/-! #### Results with a flag -/

/-- A result and a flag: the flag in VF, the result in V[X] unless X is F, and nothing else (R120, D12). -/
theorem writeResultFlag_spec (s : State) (x : Nibble) (r f : Byte) :
    (s.writeResultFlag x r f).readV vf = f ∧ (x ≠ vf → (s.writeResultFlag x r f).readV x = r) ∧
    ChangesOnly (· ∈ [.v x, .v vf]) s (s.writeResultFlag x r f) := by
  refine ⟨?_, fun hx => ?_, writeResultFlag_changesOnly s x r f⟩
  · rw [State.readV_writeResultFlag, if_pos rfl]
  · rw [State.readV_writeResultFlag, if_neg hx, if_pos rfl]

theorem decode_formatXYN_addReg (x y : Nibble) : decode (formatXYN 0x8 x y 0x4) = .ok (.addReg x y) := by
  simp [decode, decode8]

theorem carryFlag_eq (a b : Byte) : carryFlag a b = if a.toNat + b.toNat > 255 then 1 else 0 := by
  simp [carryFlag, flagByte]

theorem noBorrowFlag_eq (a b : Byte) : noBorrowFlag a b = if a.toNat < b.toNat then 0 else 1 := by
  by_cases h : a.toNat < b.toNat <;> simp [noBorrowFlag, flagByte, h]

/-- The difference mod 256, without a truncated subtraction of numbers. -/
theorem sub_toNat_mod (a b : Byte) : (a - b).toNat = (a.toNat + 256 - b.toNat) % 256 := by
  have := b.isLt
  rw [BitVec.toNat_sub]; omega

/-- Settles O31: the sum and its carry, both of the operands read before the write (R127). -/
theorem addRegisterSetsCarry : Obligations.AddRegisterSetsCarry := by
  intro x y s
  obtain ⟨hflag, hresult, hframe⟩ :=
    writeResultFlag_spec s x (s.readV x + s.readV y) (carryFlag (s.readV x) (s.readV y))
  exact ⟨encodes_of_formatXYN (by decide) (decode_formatXYN_addReg x y), _, exec_addReg x y s,
    hflag.trans (carryFlag_eq _ _), fun hx => by rw [hresult hx, BitVec.toNat_add], hframe⟩

/-- A difference and its no-borrow flag, whichever register each operand comes from. -/
theorem difference_spec (s : State) (x : Nibble) (a b : Byte) :
    (s.writeResultFlag x (a - b) (noBorrowFlag a b)).readV vf = (if a.toNat < b.toNat then 0 else 1) ∧
    (x ≠ vf → ((s.writeResultFlag x (a - b) (noBorrowFlag a b)).readV x).toNat = (a.toNat + 256 - b.toNat) % 256) ∧
    ChangesOnly (· ∈ [.v x, .v vf]) s (s.writeResultFlag x (a - b) (noBorrowFlag a b)) := by
  obtain ⟨hflag, hresult, hframe⟩ := writeResultFlag_spec s x (a - b) (noBorrowFlag a b)
  exact ⟨hflag.trans (noBorrowFlag_eq a b), fun hx => by rw [hresult hx, sub_toNat_mod], hframe⟩

/-- Settles O32: SUB and SUBN are one difference with its no-borrow flag, the operands exchanged (R128, R130). -/
theorem subtractSetsNoBorrow : Obligations.SubtractSetsNoBorrow := by
  rintro x y s i a b (⟨rfl, rfl, rfl⟩ | ⟨rfl, rfl, rfl⟩)
  · exact ⟨_, exec_sub x y s, difference_spec s x _ _⟩
  · exact ⟨_, exec_subn x y s, difference_spec s x _ _⟩

theorem flagByte_toNat (b : Bool) : (flagByte b).toNat = b.toNat := by
  cases b <;> rfl

theorem shiftedOutRight_toNat (src : Byte) : (shiftedOutRight src).toNat = src.toNat % 2 := by
  rw [shiftedOutRight, flagByte_toNat, BitVec.getLsbD, Nat.toNat_testBit, pow_zero, Nat.div_one]

theorem shiftedOutLeft_toNat (src : Byte) : (shiftedOutLeft src).toNat = src.toNat / 128 := by
  rw [shiftedOutLeft, flagByte_toNat, BitVec.getLsbD, Nat.toNat_testBit]
  omega

theorem State.shiftSource_eq {s : State} {x y : Nibble} {src : Byte}
    (hcosmac : s.config.compatMode = .cosmac → src = s.readV y) (hchip48 : s.config.compatMode = .chip48 → src = s.readV x) :
    s.shiftSource x y = src := by
  cases hm : s.config.compatMode with
  | cosmac => simp [State.shiftSource, hm, hcosmac hm]
  | chip48 => simp [State.shiftSource, hm, hchip48 hm]

theorem shiftRight_one_toNat (src : Byte) : (src >>> 1).toNat = src.toNat / 2 := by
  rw [BitVec.toNat_ushiftRight, Nat.shiftRight_one]

theorem shiftLeft_one_toNat (src : Byte) : (src <<< 1).toNat = src.toNat * 2 % 256 := by
  rw [BitVec.toNat_shiftLeft, Nat.shiftLeft_eq]

/-- Settles O33: both shifts take the mode's source and keep the bit that leaves it (R129, R131, R132). -/
theorem shiftsUseTheModesSource : Obligations.ShiftsUseTheModesSource := by
  intro x y s src hcosmac hchip48
  have hsrc : s.shiftSource x y = src := State.shiftSource_eq hcosmac hchip48
  have hshr := exec_shr x y s
  have hshl := exec_shl x y s
  rw [hsrc] at hshr hshl
  refine ⟨⟨_, hshr, ?right⟩, _, hshl, ?left⟩
  case right =>
    obtain ⟨hflag, hresult, hframe⟩ := writeResultFlag_spec s x (src >>> 1) (shiftedOutRight src)
    exact ⟨by rw [hflag, shiftedOutRight_toNat], fun hx => by rw [hresult hx, shiftRight_one_toNat], hframe⟩
  case left =>
    obtain ⟨hflag, hresult, hframe⟩ := writeResultFlag_spec s x (src <<< 1) (shiftedOutLeft src)
    exact ⟨by rw [hflag, shiftedOutLeft_toNat], fun hx => by rw [hresult hx, shiftLeft_one_toNat], hframe⟩

end Sys2Proof.Machine

/-! ### Memory (20_memory.md, 46_index_memory.md, 70_reset_and_hazards.md): stores, blocks and the words fetched from them -/

namespace Sys2Proof.Machine

/-- Settles O16: a store is one `Memory.write`, which keeps the canonical form that makes it readable. -/
theorem readAfterWrite : Obligations.ReadAfterWrite :=
  fun _ a b v hwf => ⟨State.memRead_memWrite hwf a b v, State.memWrite_wf hwf a v⟩

/-! #### LOAD -/

theorem State.load_changesOnly {s : State} (hwf : Memory.wf (resetByte s.config) s.mem = true) {bytes : List Byte}
    (hfits : bytes.length ≤ 3584) : ChangesOnly (Part.inBlock 0x200 bytes.length) s (s.load bytes).1 := by
  rw [State.load_of_le s hfits]
  exact memWriteList_changesOnly hwf 0x200 bytes (by omega)

/-- Settles O55: within the bound LOAD is one block of stores from 0x200 (R233). -/
theorem loadStoresFrom0x200 : Obligations.LoadStoresFrom0x200 := by
  intro s bytes hwf hfits
  refine ⟨?accepted, fun k hk => State.memRead_load hwf hfits hk, State.load_changesOnly hwf hfits⟩
  case accepted => rw [State.load_of_le s hfits]

/-! #### FX33, FX55 and FX65 -/

theorem exec_ldBVx (x : Nibble) (s : State) :
    exec (.ldBVx x) s = .next (s.memWriteList s.i.toNat (decimalDigits (s.readV x))) := rfl

theorem exec_ldMemVx (x : Nibble) (s : State) : exec (.ldMemVx x) s =
    .next ((s.storeRegs s.i.toNat (blockCount x)).writeI (addr (s.i.toNat + blockCount x))) := rfl

theorem exec_ldVxMem (x : Nibble) (s : State) : exec (.ldVxMem x) s =
    .next ((s.loadRegs s.i.toNat (blockCount x)).writeI (addr (s.i.toNat + blockCount x))) := rfl

theorem decodeF_ldBVx (x : Nibble) : decodeF 0x33 x = .ok (.ldBVx x) := rfl

theorem decodeF_ldMemVx (x : Nibble) : decodeF 0x55 x = .ok (.ldMemVx x) := rfl

theorem decodeF_ldVxMem (x : Nibble) : decodeF 0x65 x = .ok (.ldVxMem x) := rfl

/-- The digits stored by FX33, each below 10 and so held by its byte as it stands. -/
theorem memRead_decimalDigits {s : State} (hwf : Memory.wf (resetByte s.config) s.mem = true) (a : Nat) (v : Byte) :
    ((s.memWriteList a (decimalDigits v)).memRead a).toNat = v.toNat / 100 ∧
    ((s.memWriteList a (decimalDigits v)).memRead (a + 1)).toNat = v.toNat / 10 % 10 ∧
    ((s.memWriteList a (decimalDigits v)).memRead (a + 2)).toNat = v.toNat % 10 := by
  have hv : v.toNat < 256 := v.isLt
  have hread : ∀ k (hk : k < 3), (s.memWriteList a (decimalDigits v)).memRead (a + k) = (decimalDigits v)[k] :=
    fun k hk => State.memRead_memWriteList_offset hwf a (by simp [decimalDigits]) hk
  have hhundreds := hread 0 (by decide)
  rw [Nat.add_zero] at hhundreds
  rw [hhundreds, hread 1 (by decide), hread 2 (by decide)]
  simp only [decimalDigits, List.getElem_cons_zero, List.getElem_cons_succ, BitVec.toNat_ofNat]
  omega

/-- Settles O38: FX33 is one block of three stores, and I stands outside its frame (R182). -/
theorem bcdStoresTheDigits : Obligations.BcdStoresTheDigits := by
  intro x s hwf
  obtain ⟨hhundreds, htens, hones⟩ := memRead_decimalDigits hwf s.i.toNat (s.readV x)
  exact ⟨encodes_of_decodeF (by decide) (decodeF_ldBVx x), _, exec_ldBVx x s, hhundreds, htens, hones,
    memWriteList_changesOnly hwf s.i.toNat (decimalDigits (s.readV x)) (by simp [decimalDigits])⟩

/-- A block of at most 16 registers overlaps itself nowhere, so each byte of it reads back as its register. -/
theorem State.memRead_storeRegs_offset {s : State} (hwf : Memory.wf (resetByte s.config) s.mem = true) (base : Nat)
    {n : Nat} (hn : n ≤ 16) {j : Nibble} (hj : j.toNat < n) :
    (s.storeRegs base n).memRead (base + j.toNat) = s.readV j := by
  rcases State.memRead_storeRegs hwf base n (by omega) (base + j.toNat) with ⟨_, houtside⟩ | ⟨k, hk, hsame, hread⟩
  · exact absurd rfl (houtside j.toNat hj)
  · obtain rfl : k = j.toNat := by omega
    simpa using hread

theorem blockCount_le (x : Nibble) : blockCount x ≤ 16 := x.isLt

theorem lt_blockCount {x j : Nibble} : j.toNat < blockCount x ↔ j.toNat ≤ x.toNat := Nat.lt_succ_iff

/-- What FX55 leaves in memory (R183). -/
theorem memRead_of_ldMemVx {s t : State} {x j : Nibble} (hwf : Memory.wf (resetByte s.config) s.mem = true)
    (h : exec (.ldMemVx x) s = .next t) (hj : j.toNat ≤ x.toNat) : t.memRead (s.i.toNat + j.toNat) = s.readV j := by
  rw [exec_ldMemVx] at h
  cases h
  exact State.memRead_storeRegs_offset hwf s.i.toNat (blockCount_le x) (lt_blockCount.2 hj)

/-- What FX65 loads (R184). -/
theorem readV_of_ldVxMem {s t : State} {x j : Nibble} (h : exec (.ldVxMem x) s = .next t) (hj : j.toNat ≤ x.toNat) :
    t.readV j = s.memRead (s.i.toNat + j.toNat) := by
  rw [exec_ldVxMem] at h
  cases h
  rw [State.writeI_readV, State.readV_loadRegs _ _ _ (blockCount_le x), if_pos (lt_blockCount.2 hj)]

theorem loadRegs_changesOnly (s : State) (base : Nat) {x : Nibble} :
    ChangesOnly (Part.upToV x) s (s.loadRegs base (blockCount x)) := by
  intro p hp
  cases p with
  | v j =>
    have hj : ¬ j.toNat < blockCount x := fun h => hp ⟨j, lt_blockCount.1 h, rfl⟩
    rw [Part.Agrees, State.readV_loadRegs _ _ _ (blockCount_le x), if_neg hj]
  | _ => rw [State.loadRegs_eq]; simp [Part.Agrees, State.memRead, State.keyDown]

/-- Settles O39: FX55 is a block store and one `writeI` (R183). -/
theorem blockStoreWritesV0ToVx : Obligations.BlockStoreWritesV0ToVx := by
  intro x s hwf
  refine ⟨encodes_of_decodeF (by decide) (decodeF_ldMemVx x), _, exec_ldMemVx x s,
    fun j hj => memRead_of_ldMemVx hwf (exec_ldMemVx x s) hj, addr_toNat _, ?frame⟩
  case frame =>
    exact ((storeRegs_changesOnly hwf s.i.toNat (blockCount x) (by have := blockCount_le x; omega)).mono fun _ => .inr).trans
      ((writeI_changesOnly _ _).mono fun _ => .inl)

/-- Settles O40: FX65 is a block load and one `writeI` (R184). -/
theorem blockLoadReadsV0ToVx : Obligations.BlockLoadReadsV0ToVx := by
  intro x s
  refine ⟨encodes_of_decodeF (by decide) (decodeF_ldVxMem x), _, exec_ldVxMem x s,
    fun j hj => readV_of_ldVxMem (exec_ldVxMem x s) hj, addr_toNat _, ?frame⟩
  case frame =>
    exact ((loadRegs_changesOnly s s.i.toNat).mono fun _ => .inr).trans ((writeI_changesOnly _ _).mono fun _ => .inl)

/-- Settles O41: FX65 reads from the old I the bytes FX55 put there, and both add the same count to it. -/
theorem blockStoreThenLoadGivesTheRegistersBack : Obligations.BlockStoreThenLoadGivesTheRegistersBack := by
  intro x s t u hwf hstore hi hmem
  refine ⟨_, exec_ldVxMem x u, fun j hj => ?registers, ?index⟩
  case registers =>
    rw [readV_of_ldVxMem (exec_ldVxMem x u) hj, hi, hmem, memRead_of_ldMemVx hwf hstore hj]
  case index =>
    rw [exec_ldMemVx] at hstore
    cases hstore
    rw [State.writeI_i, State.writeI_i, hi]

/-! #### What the next fetch reads -/

theorem State.memRead_congr_mod (s : State) {a b : Nat} (h : a % 4096 = b % 4096) : s.memRead a = s.memRead b := by
  rw [← State.memRead_mod, h, State.memRead_mod]

/-- The fetch reads the two bytes from any address that reduces to the one pc does (R51, D3). -/
theorem State.fetchWord_of_mod {s : State} {a : Nat} (h : s.pc.toNat % 4096 = a % 4096) :
    s.fetchWord = wordOfBytes (s.memRead a) (s.memRead (a + 1)) := by
  rw [State.fetchWord, s.memRead_congr_mod h, s.memRead_congr_mod (show (s.pc.toNat + 1) % 4096 = (a + 1) % 4096 by omega)]

/-- Settles O12: the bytes joined as numbers, each address reduced. -/
theorem fetchIsBigEndian : Obligations.FetchIsBigEndian := by
  intro s
  rw [State.fetchWord, wordOfBytes_toNat, State.memRead_mod, State.memRead_mod, Nat.mul_comm]

/-- Settles O17: each clause is a fetch from an address whose two bytes the block lemmas have read back. -/
theorem storedWordIsFetchedNext : Obligations.StoredWordIsFetchedNext := by
  intro s t hwf
  refine ⟨?block, ?digits, ?image⟩
  case block =>
    intro x j hexec hj hpc
    have hsucc : (j + 1).toNat = j.toNat + 1 := by
      have := x.isLt
      rw [BitVec.toNat_add, Nat.mod_eq_of_lt (by simp; omega)]; rfl
    have hnext := memRead_of_ldMemVx (j := j + 1) hwf hexec (by omega)
    rw [hsucc] at hnext
    rw [State.fetchWord_of_mod hpc, memRead_of_ldMemVx hwf hexec hj.le, Nat.add_assoc, hnext]
  case digits =>
    intro x hexec hpc
    rw [exec_ldBVx] at hexec
    cases hexec
    obtain ⟨hhundreds, htens, -⟩ := memRead_decimalDigits hwf s.i.toNat (s.readV x)
    rw [State.fetchWord_of_mod hpc, wordOfBytes_toNat, hhundreds, htens]
  case image =>
    intro bytes k hk hload hpc
    have hfits : bytes.length ≤ 3584 := by
      by_contra hlong
      rw [State.load_of_gt s (by omega)] at hload
      cases hload
    obtain rfl : (s.load bytes).1 = t := by rw [hload]
    rw [State.fetchWord_of_mod (congrArg (· % 4096) hpc), State.memRead_load hwf hfits (Nat.lt_of_succ_lt hk),
      Nat.add_assoc, State.memRead_load hwf hfits hk]

end Sys2Proof.Machine

/-! ### STEP (30_encoding.md R74) -/

namespace Sys2Proof.Machine

theorem step_of_halted {s : State} (h : s.halted = true) : step s = .next s := by
  simp [step, h]

theorem step_of_decode {s : State} {i : Instr} (hrun : s.halted = false) (hd : decode s.fetchWord = .ok i) :
    step s = exec i s.advancePc := by
  simp [step, hrun, hd]

theorem step_of_unrecognized {s : State} {r : DecodeReject} (hrun : s.halted = false)
    (hd : decode s.fetchWord = .error r) : step s = .next s.advancePc := by
  simp [step, hrun, hd]

/-- Settles O11: the arm of `step` for a recognized word, and the frame of the advance. -/
theorem stepRunsTheDecodedInstruction : Obligations.StepRunsTheDecodedInstruction :=
  fun s _ hrun hd => ⟨step_of_decode hrun hd, addr_toNat _, advancePc_changesOnly s⟩

/-- Settles O13: an unrecognized word leaves the advance and nothing after it (R77). -/
theorem unrecognizedWordOnlyAdvancesPc : Obligations.UnrecognizedWordOnlyAdvancesPc :=
  fun s _ hrun hd => ⟨_, step_of_unrecognized hrun hd, addr_toNat _, advancePc_changesOnly s⟩

/-! ### Reset (10_state.md R38, 70_reset_and_hazards.md R231) -/

theorem State.reset_eq : State.reset = State.resetWith defaultConfig 0 := rfl

theorem State.applyReset_eq (s : State) : s.applyReset = State.resetWith s.config (s.rng + 1) := rfl

theorem State.resetWith_fetchWord (c : Config) (n : Nat) : (State.resetWith c n).fetchWord =
    wordOfBytes ((State.resetWith c n).memRead 0x200) ((State.resetWith c n).memRead 0x201) := rfl

/-- Settles O6: both states are a `resetWith`, whose pc is 0x200 and which is not halted. -/
theorem resetStartsAt0x200 : Obligations.ResetStartsAt0x200 := by
  intro t ht
  obtain ⟨c, n, rfl⟩ : ∃ c n, t = State.resetWith c n := by
    rcases ht with rfl | ⟨s, rfl⟩
    · exact ⟨_, _, State.reset_eq⟩
    · exact ⟨_, _, s.applyReset_eq⟩
  exact ⟨rfl, State.resetWith_fetchWord c n, fun i hd => step_of_decode rfl hd⟩

theorem State.resetWith_readV (c : Config) (n : Nat) (x : Nibble) : (State.resetWith c n).readV x = 0 := by
  simp [State.readV]

theorem resetByte_font (c : Config) (k : Fin 80) : resetByte c (0x050 + k.val) = c.font[k.val] := by
  have hk : 0x050 ≤ 0x050 + k.val ∧ 0x050 + k.val < 0x0A0 := by omega
  simp only [resetByte, dif_pos hk, Nat.add_sub_cancel_left]

theorem resetByte_outside (c : Config) {a : Nat} (h : a < 0x050 ∨ 0x0A0 ≤ a) : resetByte c a = 0 := by
  rw [resetByte, dif_neg (by omega)]

/-- Settles O7: the values of `resetWith`, and memory as what every unlisted address reads as. -/
theorem resetLeavesZerosAndTheFont : Obligations.ResetLeavesZerosAndTheFont := by
  intro s
  rw [State.applyReset_eq]
  refine ⟨State.resetWith_readV _ _, rfl, rfl, ?stack, rfl, rfl, ?cells, ?keys, rfl, rfl, rfl, rfl, ?font, ?zeros⟩
  case stack => intro k; simp
  case cells => exact fun x y => Display.cell_blank x.val y.val
  case keys => intro k; simp [State.keyDown]
  case font =>
    intro k
    rw [State.resetWith_memRead, Nat.mod_eq_of_lt (by omega), resetByte_font]
  case zeros =>
    intro a ha
    rw [State.resetWith_memRead, Nat.mod_eq_of_lt (by omega), resetByte_outside _ (by omega)]

theorem State.Inv.resetWith (c : Config) (n : Nat) : (State.resetWith c n).Inv where
  pcInRange := by simp
  iInRange := by simp
  stackInRange := by simp
  memCanonical := State.resetWith_wf c n
  faultClear := fun _ => ⟨rfl, rfl⟩
  faultFilled := by simp

/-- Settles O8: every reset state is a `resetWith`. -/
theorem invariantHoldsAtReset : Obligations.InvariantHoldsAtReset :=
  ⟨State.reset_eq ▸ State.Inv.resetWith _ _, State.Inv.resetWith⟩

/-! ### Keypad (44_keypad.md) -/

theorem State.keyIndex_of_lt {s : State} {x : Nibble} (h : (s.readV x).toNat < 16) :
    s.keyIndex x = some ⟨(s.readV x).toNat, h⟩ := by
  simp [State.keyIndex, h]

theorem State.keyIndex_of_gt {s : State} {x : Nibble} (h : 15 < (s.readV x).toNat) : s.keyIndex x = none := by
  simp only [State.keyIndex, dif_neg (show ¬ (s.readV x).toNat < 16 by omega)]

theorem exec_skp_of_lt {s : State} {x : Nibble} (h : (s.readV x).toNat < 16) :
    exec (.skp x) s = .next (s.skipIf (s.keyDown ⟨(s.readV x).toNat, h⟩)) := by
  simp [exec, execSkp, State.keyIndex_of_lt h]

theorem exec_skp_of_gt {s : State} {x : Nibble} (h : 15 < (s.readV x).toNat) :
    exec (.skp x) s = .next (s.takeFault .keyIndexRange) := by
  simp [exec, execSkp, State.keyIndex_of_gt h]

theorem exec_sknp_of_lt {s : State} {x : Nibble} (h : (s.readV x).toNat < 16) :
    exec (.sknp x) s = .next (s.skipIf (!s.keyDown ⟨(s.readV x).toNat, h⟩)) := by
  simp [exec, execSknp, State.keyIndex_of_lt h]

theorem exec_sknp_of_gt {s : State} {x : Nibble} (h : 15 < (s.readV x).toNat) :
    exec (.sknp x) s = .next (s.takeFault .keyIndexRange) := by
  simp [exec, execSknp, State.keyIndex_of_gt h]

/-- Settles O45: in range each is one `skipIf` of its key, read as it is or negated (R161, R162). -/
theorem keySkipsTestTheKey : Obligations.KeySkipsTestTheKey := by
  rintro x s h i down (⟨rfl, rfl⟩ | ⟨rfl, rfl⟩)
  · exact ⟨_, exec_skp_of_lt h, skipIf_spec s Iff.rfl⟩
  · exact ⟨_, exec_sknp_of_lt h, skipIf_spec s (by rw [Bool.not_eq_true'])⟩

theorem exec_ldVxK_of_key {s : State} {x : Nibble} {k : Fin 16} (h : s.leastKey = some k) :
    exec (.ldVxK x) s = .next (s.writeV x (BitVec.ofNat 8 k.val)) := by
  simp [exec, execLdVxK, h]

theorem exec_ldVxK_of_none {s : State} {x : Nibble} (h : s.leastKey = none) :
    exec (.ldVxK x) s = .next (s.setPc s.instrAddr) := by
  simp [exec, execLdVxK, h]

theorem decodeF_ldVxK (x : Nibble) : decodeF 0x0A x = .ok (.ldVxK x) := rfl

/-- Settles O46: the key the keypad finds is the least one, and it fits a byte (R163, D13). -/
theorem keyWaitTakesTheLeastKey : Obligations.KeyWaitTakesTheLeastKey := by
  intro x s k hdown hleast
  have hkey : s.leastKey = some k := State.leastKey_some.2 ⟨hdown, hleast⟩
  refine ⟨encodes_of_decodeF (by decide) (decodeF_ldVxK x), _, exec_ldVxK_of_key hkey, ?value, writeV_changesOnly s x _⟩
  case value => rw [State.readV_writeV_self, BitVec.toNat_ofNat, Nat.mod_eq_of_lt (by omega)]

/-! ### TICK (60_exceptions.md R208) -/

theorem countDown_toNat (b : Byte) : (countDown b).toNat = b.toNat - 1 := by
  by_cases hb : b = 0
  · subst hb; rfl
  · have hpos : b.toNat ≠ 0 := fun h => hb (BitVec.eq_of_toNat_eq h)
    rw [countDown, if_neg hb]
    bv_omega

theorem tick_changesOnly (s : State) : ChangesOnly (· ∈ [.dt, .st]) s s.tick := by
  intro p hp
  cases p <;> simp_all [Part.Agrees]

theorem runCommand_tick (s : State) : runCommand .tick s = .next s.tick := rfl

/-- Settles O52: TICK looks at neither the halt nor anything else but the two counts. -/
theorem tickCountsBothTimersDown : Obligations.TickCountsBothTimersDown :=
  fun s => ⟨_, runCommand_tick s, countDown_toNat s.dt, countDown_toNat s.st, tick_changesOnly s⟩

/-! ### Schedules (60_exceptions.md R218) -/

theorem runCommands_nil (s : State) : runCommands [] s = .next s := rfl

theorem runCommands_cons_of_next {c : Command} {s t : State} (h : runCommand c s = .next t) (cs : List Command) :
    runCommands (c :: cs) s = runCommands cs t := by
  simp [runCommands, h]

theorem dt_after_ticks (k : Nat) (s : State) :
    ∃ t, runCommands (List.replicate k .tick) s = .next t ∧ t.dt.toNat = s.dt.toNat - k := by
  induction k generalizing s with
  | zero => exact ⟨s, runCommands_nil s, rfl⟩
  | succ k ih =>
    obtain ⟨t, hrun, hdt⟩ := ih s.tick
    refine ⟨t, (runCommands_cons_of_next (runCommand_tick s) _).trans hrun, ?_⟩
    rw [hdt, State.tick_dt, countDown_toNat]
    omega

/-- Settles O51: FX15 sets DT, each TICK takes one off it down to 0, FX07 reads it. -/
theorem delayTimerReadsBackAfterTicks : Obligations.DelayTimerReadsBackAfterTicks := by
  intro x y k s t hset
  rw [exec_ldDtVx] at hset
  cases hset
  obtain ⟨u, hrun, hdt⟩ := dt_after_ticks k (s.writeDt (s.readV x))
  exact ⟨u, hrun, _, exec_ldVxDt y u, by rw [State.readV_writeV_self, hdt, State.writeDt_dt]⟩

end Sys2Proof.Machine

/-! ### What each instruction can write: one footprint per instruction, from which the whole-machine rules follow -/

namespace Sys2Proof

open Machine

/-- The parts an instruction can change in the state `s`: its own writes, and the fault state where `s` makes it fault
(60_exceptions.md R201). -/
def Instr.Footprint (s : State) : Instr → Part → Prop
  | .sys _, _ => False
  | .cls, p => ∃ cx cy, p = .cell cx cy
  | .ret, p => p = .pc ∨ p = .sp ∨ (p = .fault ∧ s.sp.val = 0)
  | .call _, p => p = .pc ∨ p = .sp ∨ (∃ k, p = .stackEntry k) ∨ (p = .fault ∧ s.sp.val = 16)
  | .jp _, p | .jpV0 _, p | .seImm _ _, p | .sneImm _ _, p | .seReg _ _, p | .sneReg _ _, p => p = .pc
  | .skp x, p | .sknp x, p => p = .pc ∨ (p = .fault ∧ 15 < (s.readV x).toNat)
  | .ldVxK x, p => p = .v x ∨ p = .pc
  | .ldImm x _, p | .addImm x _, p | .ldReg x _, p | .ldVxDt x, p => p = .v x
  | .orReg x _, p | .andReg x _, p | .xorReg x _, p => p = .v x ∨ (p = .v vf ∧ s.config.compatMode = .cosmac)
  | .addReg x _, p | .sub x _, p | .subn x _, p | .shr x _, p | .shl x _, p => p ∈ [.v x, .v vf]
  | .ldI _, p | .addIVx _, p | .ldFVx _, p => p = .i
  | .rnd x _, p => p ∈ [.v x, .rng]
  | .drw _ _ _, p => p = .v vf ∨ ∃ cx cy, p = .cell cx cy
  | .ldDtVx _, p => p = .dt
  | .ldStVx _, p => p = .st
  | .ldBVx _, p => ∃ a, p = .memByte a
  | .ldMemVx _, p => p = .i ∨ ∃ a, p = .memByte a
  | .ldVxMem x, p => p = .i ∨ p.upToV x

namespace Machine

theorem exec_drw (x y n : Nibble) (s : State) : exec (.drw x y n) s =
    .next ((s.setDisp (s.drawSprite x y n.toNat).grid).writeV vf (flagByte (s.drawSprite x y n.toNat).hit)) := rfl

theorem draw_changesOnly (s : State) (d : Display) (b : Byte) :
    ChangesOnly (fun p => p = .v vf ∨ ∃ cx cy, p = .cell cx cy) s ((s.setDisp d).writeV vf b) :=
  ((setDisp_changesOnly s d).mono fun _ => .inr).trans ((writeV_changesOnly _ vf b).mono fun _ => .inl)

theorem writeLogic_changesOnly (s : State) (x : Nibble) (r : Byte) :
    ChangesOnly (fun p => p = .v x ∨ (p = .v vf ∧ s.config.compatMode = .cosmac)) s (s.writeLogic x r) := by
  obtain ⟨hcosmac, hchip48⟩ := writeLogic_spec s x r
  cases hm : s.config.compatMode with
  | cosmac => exact (hcosmac hm).2.mono (by simp +contextual)
  | chip48 => exact (hchip48 hm).mono fun _ => .inl

/-- Stores change memory alone, whatever form it has. -/
theorem memWriteList_changesOnly_memory (s : State) (a : Nat) (bs : List Byte) :
    ChangesOnly (fun p => ∃ b, p = .memByte b) s (s.memWriteList a bs) := by
  rw [State.memWriteList_eq]
  exact mem_changesOnly _ fun b hb => absurd ⟨b, rfl⟩ hb

theorem storeRegs_changesOnly_memory (s : State) (base n : Nat) :
    ChangesOnly (fun p => ∃ b, p = .memByte b) s (s.storeRegs base n) := by
  rw [State.storeRegs_eq]
  exact mem_changesOnly _ fun b hb => absurd ⟨b, rfl⟩ hb

/-- Every instruction in every state has a next state, and that differs in the instruction's footprint alone: one arm per
shared operation the meanings are made of. -/
theorem exec_next (i : Instr) (s : State) : ∃ t, exec i s = .next t ∧ ChangesOnly (i.Footprint s) s t := by
  cases i with
  | sys => exact ⟨_, rfl, ChangesOnly.refl s⟩
  | cls => exact ⟨_, rfl, setDisp_changesOnly s _⟩
  | ret =>
    rcases Nat.eq_zero_or_pos s.sp.val with h | h
    · exact ⟨_, exec_ret_of_empty h, (takeFault_changesOnly s _).mono (by simp +contextual [Instr.Footprint, h])⟩
    · exact ⟨_, exec_ret_of_pos h, (ret_changesOnly s _).mono (by simp +contextual [Instr.Footprint])⟩
  | call nnn =>
    rcases Nat.lt_succ_iff_lt_or_eq.1 s.sp.isLt with h | h
    · exact ⟨_, exec_call_of_lt nnn h, (call_changesOnly s _ _ h).mono (by simp +contextual [Instr.Footprint])⟩
    · exact ⟨_, exec_call_of_full nnn h, (takeFault_changesOnly s _).mono (by simp +contextual [Instr.Footprint, h])⟩
  | skp x =>
    rcases Nat.lt_or_ge 15 (s.readV x).toNat with h | h
    · exact ⟨_, exec_skp_of_gt h, (takeFault_changesOnly s _).mono (by simp +contextual [Instr.Footprint, h])⟩
    · exact ⟨_, exec_skp_of_lt (Nat.lt_succ_of_le h), (skipIf_changesOnly s _).mono fun _ => .inl⟩
  | sknp x =>
    rcases Nat.lt_or_ge 15 (s.readV x).toNat with h | h
    · exact ⟨_, exec_sknp_of_gt h, (takeFault_changesOnly s _).mono (by simp +contextual [Instr.Footprint, h])⟩
    · exact ⟨_, exec_sknp_of_lt (Nat.lt_succ_of_le h), (skipIf_changesOnly s _).mono fun _ => .inl⟩
  | ldVxK x =>
    cases h : s.leastKey with
    | some k => exact ⟨_, exec_ldVxK_of_key h, (writeV_changesOnly s x _).mono fun _ => .inl⟩
    | none => exact ⟨_, exec_ldVxK_of_none h, (setPc_changesOnly s _).mono fun _ => .inr⟩
  | jp | jpV0 => exact ⟨_, rfl, setPc_changesOnly s _⟩
  | seImm | sneImm | seReg | sneReg => exact ⟨_, rfl, skipIf_changesOnly s _⟩
  | ldImm | addImm | ldReg | ldVxDt => exact ⟨_, rfl, writeV_changesOnly s _ _⟩
  | orReg | andReg | xorReg => exact ⟨_, rfl, writeLogic_changesOnly s _ _⟩
  | addReg | sub | subn | shr | shl => exact ⟨_, rfl, writeResultFlag_changesOnly s _ _ _⟩
  | ldI | addIVx | ldFVx => exact ⟨_, rfl, writeI_changesOnly s _⟩
  | rnd => exact ⟨_, rfl, drawRandomByte_writeV_changesOnly s _ _⟩
  | drw => exact ⟨_, rfl, draw_changesOnly s _ _⟩
  | ldDtVx => exact ⟨_, rfl, writeDt_changesOnly s _⟩
  | ldStVx => exact ⟨_, rfl, writeSt_changesOnly s _⟩
  | ldBVx => exact ⟨_, rfl, memWriteList_changesOnly_memory s _ _⟩
  | ldMemVx =>
    exact ⟨_, rfl, ((storeRegs_changesOnly_memory s _ _).mono fun _ => .inr).trans
      ((writeI_changesOnly _ _).mono fun _ => .inl)⟩
  | ldVxMem =>
    exact ⟨_, rfl, ((loadRegs_changesOnly s _).mono fun _ => .inr).trans ((writeI_changesOnly _ _).mono fun _ => .inl)⟩

/-- An instruction has one next state. -/
theorem exec_unique {i : Instr} {s t u : State} (hu : exec i s = .next u) (ht : exec i s = .next t) : t = u := by
  simpa [hu, eq_comm] using ht

theorem exec_changesOnly {i : Instr} {s t : State} (h : exec i s = .next t) : ChangesOnly (i.Footprint s) s t := by
  obtain ⟨t', hnext, hframe⟩ := exec_next i s
  obtain rfl := exec_unique hnext h
  exact hframe

theorem step_next (s : State) : ∃ t, step s = .next t := by
  cases hrun : s.halted with
  | true => exact ⟨_, step_of_halted hrun⟩
  | false =>
    cases hd : decode s.fetchWord with
    | error r => exact ⟨_, step_of_unrecognized hrun hd⟩
    | ok i =>
      obtain ⟨t, hnext, -⟩ := exec_next i s.advancePc
      exact ⟨t, (step_of_decode hrun hd).trans hnext⟩

/-- Settles O14: a STEP is nothing, an advance, or an `exec`, and every `exec` has a next state, fault entry included. -/
theorem noStepEverStops : Obligations.NoStepEverStops :=
  ⟨step_next, fun i s => let ⟨t, hnext, _⟩ := exec_next i s; ⟨t, hnext⟩⟩

/-! #### The writers of each part -/

section
variable {i : Instr} {s : State}

theorem footprint_vf (h : i.Footprint s (.v vf)) : i.writesVf s.config.compatMode = true := by
  cases i with
  | orReg x y | andReg x y | xorReg x y =>
    simpa [Instr.Footprint, Instr.writesVf, eq_comm (a := vf), or_comm] using h
  | ldVxMem x =>
    have hle : vf.toNat ≤ x.toNat := by simpa [Instr.Footprint, Part.upToV] using h
    have hx : x = vf := BitVec.eq_of_toNat_eq (Nat.le_antisymm (Nat.le_of_lt_succ x.isLt) hle)
    simp [Instr.writesVf, hx]
  | _ => simp_all [Instr.Footprint, Instr.writesVf]

theorem footprint_pc (h : i.Footprint s .pc) : i.writesPc = true := by
  cases i <;> simp_all [Instr.Footprint, Instr.writesPc, Part.upToV]

theorem footprint_memByte {a : Fin 4096} (h : i.Footprint s (.memByte a)) : ∃ x, i = .ldBVx x ∨ i = .ldMemVx x := by
  cases i <;> simp_all [Instr.Footprint, Part.upToV]

theorem footprint_cell {cx : Fin 64} {cy : Fin 32} (h : i.Footprint s (.cell cx cy)) :
    i = .cls ∨ ∃ x y n, i = .drw x y n := by
  cases i <;> simp_all [Instr.Footprint, Part.upToV]

theorem footprint_stackEntry {k : Fin 16} (h : i.Footprint s (.stackEntry k)) : ∃ nnn, i = .call nnn := by
  cases i <;> simp_all [Instr.Footprint, Part.upToV]

theorem footprint_sp (h : i.Footprint s .sp) : i = .ret ∨ ∃ nnn, i = .call nnn := by
  cases i <;> simp_all [Instr.Footprint, Part.upToV]

theorem footprint_i (h : i.Footprint s .i) : (∃ nnn, i = .ldI nnn) ∨
    ∃ x, i = .addIVx x ∨ i = .ldFVx x ∨ i = .ldMemVx x ∨ i = .ldVxMem x := by
  cases i <;> simp_all [Instr.Footprint, Part.upToV]

theorem footprint_rng (h : i.Footprint s .rng) : ∃ x nn, i = .rnd x nn := by
  cases i <;> simp_all [Instr.Footprint, Part.upToV]

theorem footprint_dt (h : i.Footprint s .dt) : ∃ x, i = .ldDtVx x := by
  cases i <;> simp_all [Instr.Footprint, Part.upToV]

theorem footprint_st (h : i.Footprint s .st) : ∃ x, i = .ldStVx x := by
  cases i <;> simp_all [Instr.Footprint, Part.upToV]

theorem not_footprint_key (k : Fin 16) : ¬ i.Footprint s (.key k) := by
  cases i <;> simp [Instr.Footprint, Part.upToV]

theorem not_footprint_config : ¬ i.Footprint s .config := by
  cases i <;> simp [Instr.Footprint, Part.upToV]

theorem footprint_fault (h : i.Footprint s .fault) : ∃ c, i.FaultsWith s c := by
  cases i <;> simp_all [Instr.Footprint, Part.upToV, Instr.FaultsWith]

end

/-- Settles O56: VF is in no other instruction's footprint. -/
theorem onlyTheVfWritersChangeVf : Obligations.OnlyTheVfWritersChangeVf := by
  intro i s t hexec hnot
  have hvf : ¬ i.Footprint s (.v vf) := fun h => absurd (footprint_vf h) (by simp [hnot])
  exact exec_changesOnly hexec _ hvf

/-- Settles O57: pc is in no other instruction's footprint. -/
theorem onlyElevenInstructionsWritePc : Obligations.OnlyElevenInstructionsWritePc := by
  intro i s t hexec hnot
  have hpc : ¬ i.Footprint s .pc := fun h => absurd (footprint_pc h) (by simp [hnot])
  exact exec_changesOnly hexec _ hpc

/-- A part other than pc that a STEP changes is in the footprint of the instruction it ran. -/
theorem step_writer {s t : State} {p : Part} (h : step s = .next t) (hp : p ≠ .pc) (hchanged : ¬ p.Agrees s t) :
    ∃ i, decode s.fetchWord = .ok i ∧ i.Footprint s.advancePc p := by
  rcases step_cases h with ⟨-, rfl⟩ | ⟨-, i, hd, hexec⟩ | ⟨-, r, -, rfl⟩
  · exact absurd (Part.agrees_refl _ p) hchanged
  · refine ⟨i, hd, ?_⟩
    by_contra hnot
    exact hchanged (Part.agrees_trans (advancePc_changesOnly s p hp) (exec_changesOnly hexec p hnot))
  · exact absurd (advancePc_changesOnly s p hp) hchanged

theorem exists_memByte_of_ne {s t : State} (h : ∃ a, t.memRead a ≠ s.memRead a) : ∃ a, ¬ (Part.memByte a).Agrees s t := by
  obtain ⟨a, ha⟩ := h
  exact ⟨⟨a % 4096, Nat.mod_lt a (by decide)⟩, by simpa [Part.Agrees] using ha⟩

theorem exists_cell_of_ne {s t : State} (h : t.disp ≠ s.disp) : ∃ cx cy, ¬ (Part.cell cx cy).Agrees s t := by
  by_contra! hall
  exact h (Display.ext_of_cell hall)

theorem exists_stackEntry_of_ne {s t : State} (h : t.stack ≠ s.stack) : ∃ k, ¬ (Part.stackEntry k).Agrees s t := by
  by_contra! hall
  exact h (Vector.ext fun k hk => hall ⟨k, hk⟩)

theorem exists_key_of_ne {s t : State} (h : t.key ≠ s.key) : ∃ k, ¬ (Part.key k).Agrees s t := by
  by_contra! hall
  exact h (Vector.ext fun k hk => hall ⟨k, hk⟩)

/-- Settles O58: the writers of each part, one clause per part. -/
theorem eachPartHasItsWriters : Obligations.EachPartHasItsWriters := by
  intro s t hstep
  have hwriter : ∀ {p : Part}, p ≠ .pc → ¬ p.Agrees s t →
      ∃ i, decode s.fetchWord = .ok i ∧ i.Footprint s.advancePc p := step_writer hstep
  refine ⟨fun hmem => ?_, fun hdisp => ?_, fun hstack => ?_, fun hsp => ?_, fun hi => ?_, fun hrng => ?_⟩
  · obtain ⟨a, ha⟩ := exists_memByte_of_ne hmem
    obtain ⟨i, hd, hw⟩ := hwriter (by simp) ha
    obtain ⟨x, rfl | rfl⟩ := footprint_memByte hw
    · exact ⟨x, .inl hd⟩
    · exact ⟨x, .inr hd⟩
  · obtain ⟨cx, cy, hcell⟩ := exists_cell_of_ne hdisp
    obtain ⟨i, hd, hw⟩ := hwriter (by simp) hcell
    obtain rfl | ⟨x, y, n, rfl⟩ := footprint_cell hw
    · exact .inl hd
    · exact .inr ⟨x, y, n, hd⟩
  · obtain ⟨k, hk⟩ := exists_stackEntry_of_ne hstack
    obtain ⟨i, hd, hw⟩ := hwriter (by simp) hk
    obtain ⟨nnn, rfl⟩ := footprint_stackEntry hw
    exact ⟨nnn, hd⟩
  · obtain ⟨i, hd, hw⟩ := hwriter (p := .sp) (by simp) hsp
    obtain rfl | ⟨nnn, rfl⟩ := footprint_sp hw
    · exact .inl hd
    · exact .inr ⟨nnn, hd⟩
  · obtain ⟨i, hd, hw⟩ := hwriter (p := .i) (by simp) hi
    obtain ⟨nnn, rfl⟩ | ⟨x, hx⟩ := footprint_i hw
    · exact .inl ⟨nnn, hd⟩
    · exact .inr ⟨x, by simpa [hd] using hx⟩
  · obtain ⟨i, hd, hw⟩ := hwriter (p := .rng) (by simp) hrng
    obtain ⟨x, nn, rfl⟩ := footprint_rng hw
    exact ⟨x, nn, hd⟩

theorem step_keeps_config {s t : State} (h : step s = .next t) : t.config = s.config := by
  by_contra hne
  obtain ⟨i, -, hw⟩ := step_writer (p := .config) h (by simp) hne
  exact not_footprint_config hw

/-- Settles O59: one writer for each timer, none for the keys and the configuration. -/
theorem stepsLeaveTimersKeysAndConfigAlone : Obligations.StepsLeaveTimersKeysAndConfigAlone := by
  intro s t hstep
  refine ⟨fun hdt => ?_, fun hst => ?_, ?_, step_keeps_config hstep⟩
  · obtain ⟨i, hd, hw⟩ := step_writer (p := .dt) hstep (by simp) hdt
    obtain ⟨x, rfl⟩ := footprint_dt hw
    exact ⟨x, hd⟩
  · obtain ⟨i, hd, hw⟩ := step_writer (p := .st) hstep (by simp) hst
    obtain ⟨x, rfl⟩ := footprint_st hw
    exact ⟨x, hd⟩
  · by_contra hne
    obtain ⟨k, hk⟩ := exists_key_of_ne hne
    obtain ⟨i, -, hw⟩ := step_writer hstep (by simp) hk
    exact not_footprint_key k hw

/-! ### Faults (60_exceptions.md R201 to R204) -/

/-- A form of the table takes its fault. -/
theorem exec_of_faultsWith {i : Instr} {s : State} {c : BitVec 2} (h : i.FaultsWith s c) :
    ∃ f : Fault, f.code = c ∧ exec i s = .next (s.takeFault f) := by
  rcases h with ⟨⟨nnn, rfl⟩, hfull, rfl⟩ | ⟨rfl, hempty, rfl⟩ | ⟨⟨x, rfl | rfl, hrange⟩, rfl⟩
  · exact ⟨.stackOverflow, rfl, exec_call_of_full nnn hfull⟩
  · exact ⟨.stackUnderflow, rfl, exec_ret_of_empty hempty⟩
  · exact ⟨.keyIndexRange, rfl, exec_skp_of_gt hrange⟩
  · exact ⟨.keyIndexRange, rfl, exec_sknp_of_gt hrange⟩

/-- Settles O18: each form takes its fault, and the entry is one `takeFault` (R202). -/
theorem faultingFormsTakeTheirFault : Obligations.FaultingFormsTakeTheirFault := by
  intro i s c h
  obtain ⟨f, rfl, hexec⟩ := exec_of_faultsWith h
  refine ⟨_, hexec, rfl, rfl, ?_, rfl, takeFault_changesOnly s f⟩
  rw [State.takeFault_pc, State.instrAddr, addr_toNat]
  omega

/-- An instruction that meets no condition of the table leaves the fault state alone. -/
theorem exec_keeps_halted {i : Instr} {s t : State} (hexec : exec i s = .next t) (h : ¬ ∃ c, i.FaultsWith s c) :
    t.halted = s.halted :=
  (exec_changesOnly hexec .fault fun hw => h (footprint_fault hw)).1

/-- A fault met by the instruction at pc: the fetch's advance is put back, so only the fault state differs (R202). -/
theorem takeFault_advancePc_changesOnly {s : State} (hpc : s.pc.toNat < 4096) (f : Fault) :
    ChangesOnly (· = .fault) s (s.advancePc.takeFault f) := by
  refine (((advancePc_changesOnly s).mono (by simp +contextual)).trans
    (takeFault_changesOnly s.advancePc f)).of_restored fun p hp hkept => ?_
  obtain rfl : p = .pc := by simpa [hkept] using hp
  exact State.instrAddr_advancePc hpc

/-- A STEP onto a form of the table takes its fault: the advance changes no operand of the conditions. -/
theorem eq_takeFault_of_faultsWith {i : Instr} {s t : State} {c : BitVec 2} (hexec : exec i s.advancePc = .next t)
    (hc : i.FaultsWith s c) : ∃ f : Fault, f.code = c ∧ t = s.advancePc.takeFault f := by
  obtain ⟨f, hcode, hf⟩ := exec_of_faultsWith (s := s.advancePc) hc
  exact ⟨f, hcode, exec_unique hf hexec⟩

theorem halted_iff_faultsWith {i : Instr} {s t : State} (hrun : s.halted = false) (hexec : exec i s.advancePc = .next t) :
    t.halted = true ↔ ∃ c, i.FaultsWith s c := by
  constructor
  · intro hhalted
    by_contra hnone
    have hkept : t.halted = s.advancePc.halted := exec_keeps_halted hexec hnone
    rw [hhalted, State.advancePc_halted, hrun] at hkept
    cases hkept
  · rintro ⟨c, hc⟩
    obtain ⟨f, -, rfl⟩ := eq_takeFault_of_faultsWith hexec hc
    rfl

/-- Settles O19: a halt is a fault taken, and its entry puts back the one part the fetch had moved. -/
theorem onlyTheThreeFaultsHaltAndPrecisely : Obligations.OnlyTheThreeFaultsHaltAndPrecisely := by
  intro s t hinv hrun hstep
  refine ⟨fun i hd => ?recognized, fun r hd => ?unrecognized, fun hhalted => ?precise⟩
  case recognized =>
    rw [step_of_decode hrun hd] at hstep
    refine ⟨halted_iff_faultsWith hrun hstep, fun c hc => ?_⟩
    obtain ⟨f, rfl, rfl⟩ := eq_takeFault_of_faultsWith hstep hc
    rfl
  case unrecognized =>
    rw [step_of_unrecognized hrun hd] at hstep
    cases hstep
    exact hrun
  case precise =>
    rcases step_cases hstep with ⟨hhalt, -⟩ | ⟨-, i, hd, hexec⟩ | ⟨-, r, hd, rfl⟩
    · simp [hrun] at hhalt
    · obtain ⟨c, hc⟩ := (halted_iff_faultsWith hrun hexec).1 hhalted
      obtain ⟨f, -, rfl⟩ := eq_takeFault_of_faultsWith hexec hc
      have hpc : s.advancePc.instrAddr = s.pc := State.instrAddr_advancePc hinv.pcInRange
      exact ⟨hpc, hpc, takeFault_advancePc_changesOnly hinv.pcInRange f⟩
    · simp [hrun] at hhalted

end Machine

end Sys2Proof

/-! ### The invariant (10_state.md R24, R27, R28, R35): kept by every shared operation, so by every command -/

namespace Sys2Proof.Machine

section
variable {s t : State}

theorem State.Inv.writeV (h : s.Inv) (x : Nibble) (b : Byte) : (s.writeV x b).Inv := { h with }

theorem State.Inv.writeDt (h : s.Inv) (b : Byte) : (s.writeDt b).Inv := { h with }

theorem State.Inv.writeSt (h : s.Inv) (b : Byte) : (s.writeSt b).Inv := { h with }

theorem State.Inv.setDisp (h : s.Inv) (d : Display) : (s.setDisp d).Inv := { h with }

theorem State.Inv.drawRandomByte (h : s.Inv) : s.drawRandomByte.2.Inv := { h with }

theorem State.Inv.tick (h : s.Inv) : s.tick.Inv := { h with }

theorem State.Inv.setKey (h : s.Inv) (k : Fin 16) (b : Bool) : (s.setKey k b).Inv := { h with }

theorem State.Inv.popped (h : s.Inv) : s.popped.Inv := { h with }

theorem State.Inv.writeI (h : s.Inv) {a : Word} (ha : a.toNat < 4096) : (s.writeI a).Inv := { h with iInRange := ha }

/-- A transfer while the core runs: a halted one has its fault_pc tied to pc. -/
theorem State.Inv.setPc (h : s.Inv) (hrun : s.halted = false) {a : Word} (ha : a.toNat < 4096) : (s.setPc a).Inv :=
  { h with
    pcInRange := ha
    faultFilled := fun hhalted => absurd hhalted (by simp [hrun]) }

theorem State.Inv.advancePc (h : s.Inv) (hrun : s.halted = false) : s.advancePc.Inv := h.setPc hrun (addr_lt _)

theorem State.Inv.skipIf (h : s.Inv) (hrun : s.halted = false) (c : Bool) : (s.skipIf c).Inv := by
  cases c with
  | false => exact h
  | true => exact h.setPc hrun (addr_lt _)

theorem State.Inv.writeResultFlag (h : s.Inv) (x : Nibble) (r f : Byte) : (s.writeResultFlag x r f).Inv :=
  (h.writeV x r).writeV vf f

theorem State.Inv.writeLogic (h : s.Inv) (x : Nibble) (r : Byte) : (s.writeLogic x r).Inv := by
  cases hm : s.config.compatMode with
  | cosmac => rw [State.writeLogic_cosmac hm]; exact h.writeResultFlag x r 0
  | chip48 => rw [State.writeLogic_chip48 hm]; exact h.writeV x r

theorem State.Inv.pushed (h : s.Inv) {a : Word} (ha : a.toNat < 4096) (hroom : s.sp.val < 16) : (s.pushed a hroom).Inv :=
  { h with
    stackInRange := by
      intro k
      simp only [State.pushed, Vector.getElem_set]
      split_ifs
      · exact ha
      · exact h.stackInRange k }

theorem State.Inv.memWriteList (h : s.Inv) (a : Nat) (bs : List Byte) : (s.memWriteList a bs).Inv := by
  rw [State.memWriteList_eq]
  exact { h with memCanonical := State.memWriteList_wf h.memCanonical a bs }

theorem State.Inv.storeRegs (h : s.Inv) (base n : Nat) : (s.storeRegs base n).Inv := by
  rw [State.storeRegs_eq]
  exact { h with memCanonical := State.storeRegs_wf h.memCanonical base n }

theorem State.Inv.loadRegs (h : s.Inv) (base n : Nat) : (s.loadRegs base n).Inv := by
  rw [State.loadRegs_eq]
  exact { h with }

theorem Fault.code_ne_zero (f : Fault) : f.code ≠ 0 := by
  cases f <;> decide

theorem State.Inv.takeFault (h : s.Inv) (f : Fault) : (s.takeFault f).Inv :=
  { h with
    pcInRange := addr_lt _
    faultClear := fun hrun => absurd hrun (by simp)
    faultFilled := fun _ => ⟨f.code_ne_zero, rfl⟩ }

theorem addrOperand_lt (nnn : Addr) : (addrOperand nnn).toNat < 4096 := by
  rw [addrOperand_toNat]
  exact nnn.isLt

theorem State.glyphAddr_lt (s : State) (x : Nibble) : (s.glyphAddr x).toNat < 4096 := by
  have hbyte : (s.readV x).toNat < 256 := (s.readV x).isLt
  rw [State.glyphAddr_toNat]
  omega

/-- Every instruction keeps the invariant while the core runs, one arm per shared operation: each address written to pc or I is
reduced, an operand of 12 bits, or an entry the stack already held. -/
theorem exec_inv {i : Instr} (h : s.Inv) (hrun : s.halted = false) (hexec : exec i s = .next t) : t.Inv := by
  have hresult : ∀ {u : State}, exec i s = .next u → u.Inv → t.Inv := fun hu hinv => exec_unique hu hexec ▸ hinv
  cases i with
  | sys => exact hresult rfl h
  | cls => exact hresult rfl (h.setDisp _)
  | ret =>
    rcases Nat.eq_zero_or_pos s.sp.val with hsp | hsp
    · exact hresult (exec_ret_of_empty hsp) (h.takeFault _)
    · exact hresult (exec_ret_of_pos hsp) (h.popped.setPc hrun (h.stackInRange ⟨s.sp.val - 1, by omega⟩))
  | call nnn =>
    rcases Nat.lt_succ_iff_lt_or_eq.1 s.sp.isLt with hsp | hsp
    · exact hresult (exec_call_of_lt nnn hsp) ((h.pushed h.pcInRange hsp).setPc hrun (addrOperand_lt nnn))
    · exact hresult (exec_call_of_full nnn hsp) (h.takeFault _)
  | skp x =>
    rcases Nat.lt_or_ge 15 (s.readV x).toNat with hx | hx
    · exact hresult (exec_skp_of_gt hx) (h.takeFault _)
    · exact hresult (exec_skp_of_lt (Nat.lt_succ_of_le hx)) (h.skipIf hrun _)
  | sknp x =>
    rcases Nat.lt_or_ge 15 (s.readV x).toNat with hx | hx
    · exact hresult (exec_sknp_of_gt hx) (h.takeFault _)
    · exact hresult (exec_sknp_of_lt (Nat.lt_succ_of_le hx)) (h.skipIf hrun _)
  | ldVxK x =>
    cases hkey : s.leastKey with
    | some k => exact hresult (exec_ldVxK_of_key hkey) (h.writeV x _)
    | none => exact hresult (exec_ldVxK_of_none hkey) (h.setPc hrun (addr_lt _))
  | jp nnn => exact hresult rfl (h.setPc hrun (addrOperand_lt nnn))
  | jpV0 => exact hresult rfl (h.setPc hrun (addr_lt _))
  | seImm | sneImm | seReg | sneReg => exact hresult rfl (h.skipIf hrun _)
  | ldImm | addImm | ldReg | ldVxDt => exact hresult rfl (h.writeV _ _)
  | orReg | andReg | xorReg => exact hresult rfl (h.writeLogic _ _)
  | addReg | sub | subn | shr | shl => exact hresult rfl (h.writeResultFlag _ _ _)
  | ldI nnn => exact hresult rfl (h.writeI (addrOperand_lt nnn))
  | addIVx => exact hresult rfl (h.writeI (addr_lt _))
  | ldFVx x => exact hresult rfl (h.writeI (s.glyphAddr_lt x))
  | rnd => exact hresult rfl (h.drawRandomByte.writeV _ _)
  | drw => exact hresult rfl ((h.setDisp _).writeV _ _)
  | ldDtVx => exact hresult rfl (h.writeDt _)
  | ldStVx => exact hresult rfl (h.writeSt _)
  | ldBVx => exact hresult rfl (h.memWriteList _ _)
  | ldMemVx => exact hresult rfl ((h.storeRegs _ _).writeI (addr_lt _))
  | ldVxMem => exact hresult rfl ((h.loadRegs _ _).writeI (addr_lt _))

theorem step_inv (h : s.Inv) (hstep : step s = .next t) : t.Inv := by
  rcases step_cases hstep with ⟨-, rfl⟩ | ⟨hrun, i, -, hexec⟩ | ⟨hrun, r, -, rfl⟩
  · exact h
  · exact exec_inv (h.advancePc hrun) hrun hexec
  · exact h.advancePc hrun

theorem State.Inv.load (h : s.Inv) (bytes : List Byte) : (s.load bytes).1.Inv := by
  rcases Nat.lt_or_ge 3584 bytes.length with hlong | hfits
  · rw [State.load_of_gt s hlong]; exact h
  · rw [State.load_of_le s hfits]; exact h.memWriteList 0x200 bytes

/-- Every command completes and keeps the invariant. -/
theorem runCommand_inv (h : s.Inv) (c : Command) : ∃ t, runCommand c s = .next t ∧ t.Inv := by
  cases c with
  | reset => exact ⟨_, rfl, State.Inv.resetWith _ _⟩
  | step =>
    obtain ⟨t, hstep⟩ := step_next s
    exact ⟨t, hstep, step_inv h hstep⟩
  | tick => exact ⟨_, rfl, h.tick⟩
  | load bytes => exact ⟨_, rfl, h.load bytes⟩
  | key k b => exact ⟨_, rfl, h.setKey k b⟩

theorem runCommands_inv (h : s.Inv) (cs : List Command) : ∃ t, runCommands cs s = .next t ∧ t.Inv := by
  induction cs generalizing s with
  | nil => exact ⟨s, runCommands_nil s, h⟩
  | cons c cs ih =>
    obtain ⟨u, hu, hinv⟩ := runCommand_inv h c
    obtain ⟨t, ht, htinv⟩ := ih hinv
    exact ⟨t, (runCommands_cons_of_next hu cs).trans ht, htinv⟩

end

/-- Settles O9: by the arms of `exec`, since the advance before it keeps the invariant too. -/
theorem stepKeepsTheInvariant : Obligations.StepKeepsTheInvariant :=
  fun _ _ h hstep => step_inv h hstep

/-- Settles O10: by induction on the schedule, one command at a time. -/
theorem everyScheduleKeepsTheInvariant : Obligations.EveryScheduleKeepsTheInvariant :=
  fun cs _ h => runCommands_inv h cs

end Sys2Proof.Machine

/-! ### Fixed points of STEP: the self-jump (40_flow.md R109), the key wait (44_keypad.md R163), the halt (60_exceptions.md
R203) -/

namespace Sys2Proof.Machine

/-- The advance, then pc put back: the core as it was. -/
theorem State.advancePc_setPc_pc (s : State) : s.advancePc.setPc s.pc = s := rfl

theorem fetchWord_of_selfJump {s : State} (hpc : s.pc.toNat < 4096) (hword : s.fetchWord.toNat = 0x1000 + s.pc.toNat) :
    s.fetchWord = formatANNN 0x1 (s.pc.setWidth 12) :=
  BitVec.eq_of_toNat_eq (by rw [hword, formatANNN_toNat, BitVec.toNat_setWidth, Nat.mod_eq_of_lt hpc]; rfl)

theorem addrOperand_setWidth {a : Word} (h : a.toNat < 4096) : addrOperand (a.setWidth 12) = a :=
  BitVec.eq_of_toNat_eq (by rw [addrOperand_toNat, BitVec.toNat_setWidth, Nat.mod_eq_of_lt h])

/-- Settles O15: the jump puts back the pc the fetch had advanced. -/
theorem selfJumpIsAFixedPoint : Obligations.SelfJumpIsAFixedPoint := by
  intro s hrun hpc hword
  have hd : decode s.fetchWord = .ok (.jp (s.pc.setWidth 12)) := by
    rw [fetchWord_of_selfJump hpc hword, decode_formatANNN_jp]
  refine ⟨?fixed, ?verdict⟩
  case fixed => rw [step_of_decode hrun hd, exec_jp, addrOperand_setWidth hpc, State.advancePc_setPc_pc]
  case verdict => simp [State.verdict, State.atSelfJump, hrun, hword, hpc]

theorem step_of_key_wait {s : State} {x : Nibble} (hrun : s.halted = false) (hpc : s.pc.toNat < 4096)
    (hd : decode s.fetchWord = .ok (.ldVxK x)) (hkeys : ∀ k, s.keyDown k = false) : step s = .next s := by
  have hkey : s.advancePc.leastKey = none := State.leastKey_none.2 hkeys
  rw [step_of_decode hrun hd, exec_ldVxK_of_none hkey, State.instrAddr_advancePc hpc, State.advancePc_setPc_pc]

theorem State.tick_fetchWord (s : State) : s.tick.fetchWord = s.fetchWord := rfl

/-- Settles O47: the wait is a fixed point of STEP, and a TICK changes nothing the wait rests on. -/
theorem keyWaitRepeatsUntilAKey : Obligations.KeyWaitRepeatsUntilAKey := by
  intro x s hrun hpc hd hkeys
  refine ⟨step_of_key_wait hrun hpc hd hkeys, fun cs => ?_⟩
  induction cs generalizing s with
  | nil =>
    intro t _ hrunAll
    cases hrunAll
    exact ChangesOnly.refl s
  | cons c cs ih =>
    intro t hcs hrunAll
    obtain ⟨hc, hrest⟩ := List.forall_mem_cons.1 hcs
    rcases hc with rfl | rfl
    · have hwait : runCommand .step s = .next s := step_of_key_wait hrun hpc hd hkeys
      rw [runCommands_cons_of_next hwait] at hrunAll
      exact ih s hrun hpc hd hkeys t hrest hrunAll
    · rw [runCommands_cons_of_next (runCommand_tick s)] at hrunAll
      rw [← State.tick_fetchWord] at hd
      exact (tick_changesOnly s).trans (ih s.tick hrun hpc hd hkeys t hrest hrunAll)

/-- What a halted core lets change: the timers, memory and the keys (R203). -/
def Part.OpenWhileHalted (p : Part) : Prop := p = .dt ∨ p = .st ∨ (∃ a, p = .memByte a) ∨ ∃ k, p = .key k

theorem State.load_changesOnly_memory (s : State) (bytes : List Byte) :
    ChangesOnly (fun p => ∃ a, p = .memByte a) s (s.load bytes).1 := by
  rcases Nat.lt_or_ge 3584 bytes.length with hlong | hfits
  · rw [State.load_of_gt s hlong]; exact ChangesOnly.refl s
  · rw [State.load_of_le s hfits]; exact memWriteList_changesOnly_memory s 0x200 bytes

theorem runCommand_of_halted {s : State} (hhalted : s.halted = true) {c : Command} (hc : c ≠ .reset) :
    ∃ t, runCommand c s = .next t ∧ ChangesOnly Part.OpenWhileHalted s t := by
  cases c with
  | reset => exact absurd rfl hc
  | step => exact ⟨s, step_of_halted hhalted, ChangesOnly.refl s⟩
  | tick => exact ⟨_, rfl, (tick_changesOnly s).mono (by simp +contextual [Part.OpenWhileHalted])⟩
  | load bytes => exact ⟨_, rfl, (State.load_changesOnly_memory s bytes).mono fun _ hp => .inr (.inr (.inl hp))⟩
  | key k b => exact ⟨_, rfl, (setKey_changesOnly s k b).mono fun _ hp => .inr (.inr (.inr ⟨k, hp⟩))⟩

theorem ChangesOnly.halted_eq {s t : State} (h : ChangesOnly Part.OpenWhileHalted s t) : t.halted = s.halted :=
  (h .fault (by simp [Part.OpenWhileHalted])).1

theorem runCommands_of_halted {s t : State} (hhalted : s.halted = true) {cs : List Command} (hcs : Command.reset ∉ cs)
    (hrun : runCommands cs s = .next t) : ChangesOnly Part.OpenWhileHalted s t := by
  induction cs generalizing s with
  | nil =>
    cases hrun
    exact ChangesOnly.refl _
  | cons c cs ih =>
    obtain ⟨hc, hrest⟩ : c ≠ .reset ∧ Command.reset ∉ cs := by simpa [eq_comm] using hcs
    obtain ⟨u, hu, hframe⟩ := runCommand_of_halted hhalted hc
    rw [runCommands_cons_of_next hu] at hrun
    exact hframe.trans (ih (hframe.halted_eq.trans hhalted) hrest hrun)

/-- Settles O20: the halt is outside the frame of every command but RESET. -/
theorem onlyResetClearsAHalt : Obligations.OnlyResetClearsAHalt := by
  intro s hhalted
  refine ⟨step_of_halted hhalted, fun cs t hcs hrun => ?_⟩
  have hframe : ChangesOnly Part.OpenWhileHalted s t := runCommands_of_halted hhalted hcs hrun
  have hstays : t.halted = true := hframe.halted_eq.trans hhalted
  exact ⟨hstays, by simp [State.verdict, hstays], hframe⟩

/-! ### What no instruction reads: the mode, but for five (41_alu.md R132), and ST (10_state.md R30) -/

/-- The state with another mode and another sound timer, the two parts that instructions leave unread. -/
def State.withModeSt (s : State) (m : CompatMode) (b : Byte) : State := (s.withMode m).writeSt b

theorem State.withModeSt_st (s : State) (m : CompatMode) : s.withModeSt m s.st = s.withMode m := rfl

theorem State.withModeSt_mode (s : State) (b : Byte) : s.withModeSt s.config.compatMode b = s.writeSt b := rfl

section
variable (s : State) (m : CompatMode) (b : Byte)

theorem State.storeRegs_withModeSt (base n : Nat) :
    (s.withModeSt m b).storeRegs base n = (s.storeRegs base n).withModeSt m b := by
  induction n with
  | zero => rfl
  | succ n ih => rw [State.storeRegs, ih]; rfl

theorem State.loadRegs_withModeSt (base n : Nat) :
    (s.withModeSt m b).loadRegs base n = (s.loadRegs base n).withModeSt m b := by
  induction n with
  | zero => rfl
  | succ n ih => rw [State.loadRegs, ih]; rfl

theorem State.skipIf_withModeSt (c : Bool) : (s.withModeSt m b).skipIf c = (s.skipIf c).withModeSt m b := by
  cases c <;> rfl

/-- The logic instructions read the mode, so this one holds in the state's own. -/
theorem State.writeLogic_withModeSt (x : Nibble) (r : Byte) : (s.withModeSt s.config.compatMode b).writeLogic x r =
    (s.writeLogic x r).withModeSt s.config.compatMode b := by
  rw [State.withModeSt_mode]
  cases hm : s.config.compatMode with
  | cosmac => rw [State.writeLogic_cosmac hm, State.writeLogic_cosmac (s := s.writeSt b) hm, ← hm]; rfl
  | chip48 => rw [State.writeLogic_chip48 hm, State.writeLogic_chip48 (s := s.writeSt b) hm, ← hm]; rfl

end

theorem State.withModeSt_config_eq {s t : State} (h : t.config = s.config) (b : Byte) :
    t.withModeSt s.config.compatMode b = t.writeSt b := by
  rw [← h]; rfl

/-- An instruction other than FX18 that does not read the mode, or is given its own, does the same to the state with another
mode and another sound timer. -/
theorem exec_withModeSt {i : Instr} {s t : State} {m : CompatMode}
    (hmode : i.modeDependent = false ∨ m = s.config.compatMode) (hst : ∀ x, i ≠ .ldStVx x) (b : Byte)
    (hexec : exec i s = .next t) : exec i (s.withModeSt m b) = .next (t.withModeSt m b) := by
  have hresult : ∀ {u : State}, exec i s = .next u → exec i (s.withModeSt m b) = .next (u.withModeSt m b) →
      exec i (s.withModeSt m b) = .next (t.withModeSt m b) := fun hu hu' => exec_unique hu hexec ▸ hu'
  have hnext : ∀ {u v : State}, u = v → (Host.Outcome.next u : Host.Outcome State Fault Refusal) = .next v := congrArg _
  cases i with
  | ldStVx x => exact absurd rfl (hst x)
  | ret =>
    rcases Nat.eq_zero_or_pos s.sp.val with h | h
    · exact hresult (exec_ret_of_empty h) (exec_ret_of_empty (s := s.withModeSt m b) h)
    · exact hresult (exec_ret_of_pos h) (exec_ret_of_pos (s := s.withModeSt m b) h)
  | call nnn =>
    rcases Nat.lt_succ_iff_lt_or_eq.1 s.sp.isLt with h | h
    · exact hresult (exec_call_of_lt nnn h) (exec_call_of_lt nnn (s := s.withModeSt m b) h)
    · exact hresult (exec_call_of_full nnn h) (exec_call_of_full nnn (s := s.withModeSt m b) h)
  | skp x =>
    rcases Nat.lt_or_ge 15 (s.readV x).toNat with h | h
    · exact hresult (exec_skp_of_gt h) (exec_skp_of_gt (s := s.withModeSt m b) h)
    · have hlt : (s.readV x).toNat < 16 := Nat.lt_succ_of_le h
      exact hresult (exec_skp_of_lt hlt)
        ((exec_skp_of_lt (s := s.withModeSt m b) hlt).trans (hnext (s.skipIf_withModeSt m b _)))
  | sknp x =>
    rcases Nat.lt_or_ge 15 (s.readV x).toNat with h | h
    · exact hresult (exec_sknp_of_gt h) (exec_sknp_of_gt (s := s.withModeSt m b) h)
    · have hlt : (s.readV x).toNat < 16 := Nat.lt_succ_of_le h
      exact hresult (exec_sknp_of_lt hlt)
        ((exec_sknp_of_lt (s := s.withModeSt m b) hlt).trans (hnext (s.skipIf_withModeSt m b _)))
  | ldVxK x =>
    cases h : s.leastKey with
    | some k => exact hresult (exec_ldVxK_of_key h) (exec_ldVxK_of_key (s := s.withModeSt m b) h)
    | none => exact hresult (exec_ldVxK_of_none h) (exec_ldVxK_of_none (s := s.withModeSt m b) h)
  | seImm | sneImm | seReg | sneReg => exact hresult rfl (hnext (s.skipIf_withModeSt m b _))
  | orReg | andReg | xorReg =>
    obtain rfl : m = s.config.compatMode := by simpa [Instr.modeDependent] using hmode
    exact hresult rfl (hnext (s.writeLogic_withModeSt b _ _))
  | shr | shl =>
    obtain rfl : m = s.config.compatMode := by simpa [Instr.modeDependent] using hmode
    exact hresult rfl rfl
  | ldMemVx => exact hresult rfl (by rw [exec_ldMemVx, State.storeRegs_withModeSt]; rfl)
  | ldVxMem => exact hresult rfl (by rw [exec_ldVxMem, State.loadRegs_withModeSt]; rfl)
  | _ => exact hresult rfl rfl

theorem State.withModeSt_of_st_eq {s t : State} (h : t.st = s.st) (m : CompatMode) :
    t.withModeSt m s.st = t.withMode m := by
  rw [← h, State.withModeSt_st]

theorem exec_keeps_st {i : Instr} {s t : State} (hst : ∀ x, i ≠ .ldStVx x) (hexec : exec i s = .next t) : t.st = s.st :=
  exec_changesOnly hexec .st fun hw => let ⟨x, hx⟩ := footprint_st hw; hst x hx

theorem exec_keeps_config {i : Instr} {s t : State} (hexec : exec i s = .next t) : t.config = s.config :=
  exec_changesOnly hexec .config not_footprint_config

/-- Settles O34: the five aside, the mode is a part no instruction reads. -/
theorem modeChangesFiveInstructionsOnly : Obligations.ModeChangesFiveInstructionsOnly := by
  intro i s t m hmode hexec
  by_cases hst : ∀ x, i ≠ .ldStVx x
  · have hboth := exec_withModeSt (m := m) (.inl hmode) hst s.st hexec
    rwa [State.withModeSt_st, State.withModeSt_of_st_eq (exec_keeps_st hst hexec)] at hboth
  · obtain ⟨x, rfl⟩ : ∃ x, i = .ldStVx x := by simpa using hst
    rw [exec_ldStVx] at hexec
    cases hexec
    rfl

/-- FX18 overwrites ST, and every other instruction carries it along unread. -/
theorem exec_writeSt {i : Instr} {s t : State} (b : Byte) (hexec : exec i s = .next t) :
    ∃ t', exec i (s.writeSt b) = .next t' ∧ ChangesOnly (· = .st) t t' := by
  by_cases hst : ∀ x, i ≠ .ldStVx x
  · have hboth := exec_withModeSt (m := s.config.compatMode) (.inr rfl) hst b hexec
    rw [State.withModeSt_mode, State.withModeSt_config_eq (exec_keeps_config hexec)] at hboth
    exact ⟨_, hboth, writeSt_changesOnly t b⟩
  · obtain ⟨x, rfl⟩ : ∃ x, i = .ldStVx x := by simpa using hst
    rw [exec_ldStVx] at hexec
    cases hexec
    exact ⟨_, exec_ldStVx x (s.writeSt b), ChangesOnly.refl _⟩

theorem State.writeSt_fetchWord (s : State) (b : Byte) : (s.writeSt b).fetchWord = s.fetchWord := rfl

/-- Settles O60: neither the fetch nor an instruction reads ST. -/
theorem noInstructionReadsTheSoundTimer : Obligations.NoInstructionReadsTheSoundTimer := by
  intro s t b hstep
  rcases step_cases hstep with ⟨hhalted, rfl⟩ | ⟨hrun, i, hd, hexec⟩ | ⟨hrun, r, hd, rfl⟩
  · exact ⟨_, step_of_halted (s := t.writeSt b) hhalted, writeSt_changesOnly t b⟩
  · obtain ⟨t', hexec', hframe⟩ := exec_writeSt b hexec
    rw [← State.writeSt_fetchWord s b] at hd
    exact ⟨t', (step_of_decode (s := s.writeSt b) hrun hd).trans hexec', hframe⟩
  · rw [← State.writeSt_fetchWord s b] at hd
    exact ⟨_, step_of_unrecognized (s := s.writeSt b) hrun hd, writeSt_changesOnly s.advancePc b⟩

end Sys2Proof.Machine

/-! ### DRW (43_display.md R152 to R154): a sprite flips the cells it covers -/

namespace Sys2Proof.Machine

/-- From the canvas `k` to `k'` exactly the cells in `S` are flipped, and the collision is set when one of them was on. -/
structure Canvas.Flips (S : Fin 64 → Fin 32 → Prop) (k k' : Canvas) : Prop where
  flipped : ∀ cx cy, S cx cy → k'.grid.cell cx.val cy.val = !k.grid.cell cx.val cy.val
  kept : ∀ cx cy, ¬ S cx cy → k'.grid.cell cx.val cy.val = k.grid.cell cx.val cy.val
  hit_iff : k'.hit = true ↔ k.hit = true ∨ ∃ cx cy, S cx cy ∧ k.grid.cell cx.val cy.val = true

section
variable {S T : Fin 64 → Fin 32 → Prop} {k k' k'' : Canvas}

theorem Canvas.Flips.refl (hS : ∀ cx cy, ¬ S cx cy) (k : Canvas) : Canvas.Flips S k k where
  flipped cx cy h := absurd h (hS cx cy)
  kept _ _ _ := rfl
  hit_iff := by simp [hS]

theorem Canvas.Flips.congr (h : Canvas.Flips S k k') (hST : ∀ cx cy, T cx cy ↔ S cx cy) : Canvas.Flips T k k' := by
  obtain rfl : T = S := by funext cx cy; exact propext (hST cx cy)
  exact h

/-- Drawings of disjoint sets of cells compose to the drawing of both: no cell is flipped back. -/
theorem Canvas.Flips.trans (h : Canvas.Flips S k k') (h' : Canvas.Flips T k' k'')
    (hdisjoint : ∀ cx cy, T cx cy → ¬ S cx cy) : Canvas.Flips (fun cx cy => S cx cy ∨ T cx cy) k k'' where
  flipped cx cy hST := by
    rcases hST with hS | hT
    · rw [h'.kept cx cy fun hT => hdisjoint cx cy hT hS, h.flipped cx cy hS]
    · rw [h'.flipped cx cy hT, h.kept cx cy (hdisjoint cx cy hT)]
  kept cx cy hST := by
    rw [not_or] at hST
    rw [h'.kept cx cy hST.2, h.kept cx cy hST.1]
  hit_iff := by
    have hsame : (∃ cx cy, T cx cy ∧ k'.grid.cell cx.val cy.val = true) ↔
        ∃ cx cy, T cx cy ∧ k.grid.cell cx.val cy.val = true := by
      refine exists_congr fun cx => exists_congr fun cy => and_congr_right fun hT => ?_
      rw [h.kept cx cy (hdisjoint cx cy hT)]
    rw [h'.hit_iff, hsame, h.hit_iff]
    simp only [or_and_right, exists_or, or_assoc]

/-- The cell a pixel falls on, when its bit is set. -/
def PixelCovers (bit : Bool) (x y : Nat) (cx : Fin 64) (cy : Fin 32) : Prop :=
  cx.val = x % 64 ∧ cy.val = y % 32 ∧ bit = true

theorem Display.cell_mod (d : Display) (x y : Nat) : d.cell (x % 64) (y % 32) = d.cell x y := by
  simp [Display.cell]

theorem Canvas.xorPixel_flips (k : Canvas) (x y : Nat) (bit : Bool) :
    Canvas.Flips (PixelCovers bit x y) k (k.xorPixel x y bit) where
  flipped cx cy h := by
    obtain ⟨hx, hy, hbit⟩ := h
    simp [Canvas.xorPixel_cell, hbit, hx, hy]
  kept cx cy h := by
    have hmiss : (bit && decide (cx.val = x % 64 ∧ cy.val = y % 32)) = false := by
      rw [← Bool.not_eq_true, Bool.and_eq_true, decide_eq_true_iff]
      exact fun ⟨hbit, hx, hy⟩ => h ⟨hx, hy, hbit⟩
    rw [Canvas.xorPixel_cell, Nat.mod_eq_of_lt cx.isLt, Nat.mod_eq_of_lt cy.isLt, hmiss, Bool.xor_false]
  hit_iff := by
    rw [Canvas.xorPixel_hit, Bool.or_eq_true, Bool.and_eq_true]
    refine or_congr_right ⟨fun ⟨hbit, hon⟩ => ?_, fun ⟨cx, cy, ⟨hx, hy, hbit⟩, hon⟩ => ⟨hbit, ?_⟩⟩
    · exact ⟨⟨x % 64, Nat.mod_lt x (by decide)⟩, ⟨y % 32, Nat.mod_lt y (by decide)⟩, ⟨rfl, rfl, hbit⟩,
        (Display.cell_mod _ x y).trans hon⟩
    · rwa [hx, hy, Display.cell_mod] at hon

/-- The cells the first `n` pixels of a row fall on. -/
def RowCovers (row : Byte) (x y n : Nat) (cx : Fin 64) (cy : Fin 32) : Prop :=
  ∃ c, c < n ∧ PixelCovers (rowBit row c) (x + c) y cx cy

theorem Canvas.drawRow_flips (row : Byte) (x y : Nat) (k : Canvas) {n : Nat} (hn : n ≤ 64) :
    Canvas.Flips (RowCovers row x y n) k (Canvas.drawRow row x y k n) := by
  induction n with
  | zero => exact Canvas.Flips.refl (by simp [RowCovers]) k
  | succ n ih =>
    refine ((ih (by omega)).trans (Canvas.xorPixel_flips _ (x + n) y (rowBit row n)) ?disjoint).congr ?cells
    case disjoint =>
      rintro cx cy ⟨hx, _⟩ ⟨c, hc, hx', _⟩
      omega
    case cells =>
      intro cx cy
      simp only [RowCovers, Nat.lt_succ_iff_lt_or_eq, or_and_right, exists_or, exists_eq_left]

/-- The cells the first `n` rows of a sprite fall on. -/
def RowsCover (row : Nat → Byte) (x y n : Nat) (cx : Fin 64) (cy : Fin 32) : Prop :=
  ∃ r, r < n ∧ RowCovers (row r) x (y + r) 8 cx cy

theorem Canvas.drawRows_flips (row : Nat → Byte) (x y : Nat) (k : Canvas) {n : Nat} (hn : n ≤ 32) :
    Canvas.Flips (RowsCover row x y n) k (Canvas.drawRows row x y k n) := by
  induction n with
  | zero => exact Canvas.Flips.refl (by simp [RowsCover]) k
  | succ n ih =>
    refine ((ih (by omega)).trans (Canvas.drawRow_flips (row n) x (y + n) _ (by decide)) ?disjoint).congr ?cells
    case disjoint =>
      rintro cx cy ⟨_, _, _, hy, _⟩ ⟨r, hr, _, _, _, hy', _⟩
      omega
    case cells =>
      intro cx cy
      simp only [RowsCover, Nat.lt_succ_iff_lt_or_eq, or_and_right, exists_or, exists_eq_left]

end

/-- The sprite at I covers what its rows cover, and 15 rows of 8 pixels overlap nowhere on the torus. -/
theorem drawSprite_flips (s : State) (x y n : Nibble) :
    Canvas.Flips (s.SpriteCovers x y n) { grid := s.disp, hit := false } (s.drawSprite x y n.toNat) :=
  Canvas.drawRows_flips s.spriteRow _ _ _ (by have := n.isLt; omega)

theorem drawSprite_hit_iff (s : State) (x y n : Nibble) : (s.drawSprite x y n.toNat).hit = true ↔
    ∃ cx cy, s.SpriteCovers x y n cx cy ∧ s.disp.cell cx.val cy.val = true := by
  simp [(drawSprite_flips s x y n).hit_iff]

/-- VF after a draw (R154). -/
theorem flagByte_drawSprite_hit (s : State) (x y n : Nibble) :
    ((∃ cx cy, s.SpriteCovers x y n cx cy ∧ s.disp.cell cx.val cy.val = true) →
      flagByte (s.drawSprite x y n.toNat).hit = 1) ∧
    ((∀ cx cy, s.SpriteCovers x y n cx cy → s.disp.cell cx.val cy.val = false) →
      flagByte (s.drawSprite x y n.toNat).hit = 0) := by
  refine ⟨fun hon => ?_, fun hoff => ?_⟩
  · rw [(drawSprite_hit_iff s x y n).2 hon]; rfl
  · have hmiss : ¬ (s.drawSprite x y n.toNat).hit = true := by
      rw [drawSprite_hit_iff]
      rintro ⟨cx, cy, hcovers, hon⟩
      simp [hoff cx cy hcovers] at hon
    rw [Bool.eq_false_iff.2 hmiss]; rfl

/-- Settles O43: the draw flips what the sprite covers, and VF is the flag of its collision. -/
theorem drawXorsTheSprite : Obligations.DrawXorsTheSprite := by
  intro x y n s
  have hflips := drawSprite_flips s x y n
  obtain ⟨hon, hoff⟩ := flagByte_drawSprite_hit s x y n
  refine ⟨?encoding, _, exec_drw x y n s, fun cx cy => ⟨hflips.flipped cx cy, hflips.kept cx cy⟩, fun h => ?collision,
    fun h => ?noCollision, draw_changesOnly s _ _⟩
  case encoding =>
    have hword : (encode (.drw x y n)).toNat = 0xD000 + 256 * x.toNat + 16 * y.toNat + n.toNat := by
      rw [encode, formatXYN_toNat, Nat.mul_comm 256, Nat.mul_comm 16]; rfl
    exact encodes_of_toNat hword (decode_encode rfl)
  case collision => rw [State.readV_writeV_self, hon h]
  case noCollision => rw [State.readV_writeV_self, hoff h]

/-- A draw leaves the sprite where it was, unless it overwrites a coordinate. -/
theorem spriteCovers_of_drw {x y n : Nibble} {s t : State} (hx : x ≠ vf) (hy : y ≠ vf)
    (hdraw : exec (.drw x y n) s = .next t) : t.SpriteCovers x y n = s.SpriteCovers x y n := by
  rw [exec_drw] at hdraw
  cases hdraw
  funext cx cy
  simp [State.SpriteCovers, hx, hy]

theorem disp_of_drw {x y n : Nibble} {s t : State} (hdraw : exec (.drw x y n) s = .next t) :
    t.disp = (s.drawSprite x y n.toNat).grid := by
  rw [exec_drw] at hdraw
  cases hdraw
  rfl

theorem readV_vf_of_drw {x y n : Nibble} {s t : State} (hdraw : exec (.drw x y n) s = .next t) :
    t.readV vf = flagByte (s.drawSprite x y n.toNat).hit := by
  rw [exec_drw] at hdraw
  cases hdraw
  exact State.readV_writeV_self _ vf _

/-- Settles O44: the second draw flips the same cells back, and collides where the first one had turned a cell on. -/
theorem drawingTwiceRestoresTheDisplay : Obligations.DrawingTwiceRestoresTheDisplay := by
  intro x y n s t u hx hy hfirst hsecond
  have hfirstFlips := drawSprite_flips s x y n
  have hsecondFlips := drawSprite_flips t x y n
  obtain ⟨hon, hoff⟩ := flagByte_drawSprite_hit t x y n
  rw [spriteCovers_of_drw hx hy hfirst] at hsecondFlips hon hoff
  have hinverted : ∀ cx cy, s.SpriteCovers x y n cx cy → t.disp.cell cx.val cy.val = !s.disp.cell cx.val cy.val := by
    rw [disp_of_drw hfirst]
    exact hfirstFlips.flipped
  refine ⟨?restored, fun ⟨cx, cy, hcovers, hcell⟩ => ?collision, fun hall => ?noCollision⟩
  case restored =>
    rw [disp_of_drw hsecond]
    refine Display.ext_of_cell fun cx cy => ?_
    by_cases hcovers : s.SpriteCovers x y n cx cy
    · rw [hsecondFlips.flipped cx cy hcovers, hinverted cx cy hcovers, Bool.not_not]
    · rw [hsecondFlips.kept cx cy hcovers, disp_of_drw hfirst, hfirstFlips.kept cx cy hcovers]
  case collision =>
    rw [readV_vf_of_drw hsecond]
    exact hon ⟨cx, cy, hcovers, by rw [hinverted cx cy hcovers, hcell]; rfl⟩
  case noCollision =>
    rw [readV_vf_of_drw hsecond]
    exact hoff fun cx cy hcovers => by rw [hinverted cx cy hcovers, hall cx cy hcovers]; rfl

end Sys2Proof.Machine
